-- ==== Sys2Proof/Word.lean ====
section
/-! DEFINITION. The value types of the framer: bytes, 16-bit words, the parser states and the telemetry record
(spec 00_scope.md R18, 10_state.md R21, 44_telemetry_codec.md R151 to R153). -/

namespace Sys2Proof

/-- A byte of the stream or of the frame buffer (R18). -/
abbrev Byte := BitVec 8

/-- A word16: a field selector or a checksum value (R18). -/
abbrev Word16 := BitVec 16

/-- `ParserState` (R21): exactly one state is active at a time. -/
inductive ParserState where
  | awaitingSync
  | awaitingGroupSelector
  | awaitingFieldSelectors
  | awaitingPayloadAndChecksum
deriving DecidableEq, Repr

/-- A payload field of three elements of `w` bits, the first at the lowest offset (R53, R152). -/
structure Triple (w : Nat) where
  e0 : BitVec w
  e1 : BitVec w
  e2 : BitVec w
deriving DecidableEq, Repr

/-- `TelemetryRecord`: the 15 fields of the one supported configuration, in payload order (R151). Every element is
the bit pattern the payload holds; floats are never interpreted (R158). The element split of the nine fields the
source does not name is the spec's decision D9 (R153, assumption log 13). -/
structure TelemetryRecord where
  timestamp   : BitVec 64
  orientation : Triple 32
  angularRate : Triple 32
  position    : Triple 64
  g0f7        : Triple 32
  g0f8        : Triple 32
  g3f1        : BitVec 64
  g3f3        : BitVec 8
  g3f4        : BitVec 8
  g3f9        : Triple 32
  g3f10       : BitVec 32
  g4f6        : Triple 32
  g4f8        : Triple 32
  status      : BitVec 16
  tail        : Triple 32
deriving DecidableEq, Repr

/-- The codec's one error, with the length it was given (R157). -/
inductive CodecError where
  | lengthMismatch (len : Nat)
deriving DecidableEq, Repr

end Sys2Proof
end

