-- ==== Sys2Proof/Config.lean ====
section
/-! DEFINITION. The configuration constants of spec 00_scope.md R7 and R9. No operation writes them (R62). The width
table, the remaining constant of R7, is `Machine.widthTable` in Machine/Resolver.lean. -/

namespace Sys2Proof.Config

/-- `SYNC`, the first byte of every frame (R7, R71). -/
def sync : Byte := 0xFA

/-- `GROUP_BITS`: bits 0 to 6 of the group selector are significant (R7, R72). -/
def groupBits : Nat := 7

/-- `FIELD_BITS`: bits of one field selector (R7, R73). -/
def fieldBits : Nat := 16

/-- `EXPECTED_PAYLOAD_LEN` (R7). -/
def expectedPayloadLen : Nat := 144

/-- `CHECKSUM_LEN` (R7). -/
def checksumLen : Nat := 2

/-- `CRC_INIT` (R7). -/
def crcInit : Word16 := 0x0000

/-- `REF_GROUP_SEL`, used by `BUILD_REF` only (R7). -/
def refGroupSel : Byte := 0x39

/-- `REF_FIELD_SEL[0..3]`, used by `BUILD_REF` only (R7). -/
def refFieldSel : List Word16 := [0x01E9, 0x061A, 0x0140, 0x0009]

/-- `CNT_W`, the width of each counter, at the spec's default (R9, R31, decision D3, assumption log 8). -/
abbrev cntW : Nat := 32

/-- `BUF_CAP`, the largest length the buffer reaches, inside the step that then clears it (R9, R25, decision D4). No
operation reads it: the bound is a fact about runs, not a check. -/
def bufCap : Nat := 162

end Sys2Proof.Config
end

