-- ==== Sys2Proof/Machine/Operands.lean ====
section
/-! DEFINITION. Every way an operand is assembled from bytes (spec 30_encoding.md R79, 00_scope.md R19): big-endian
words, little-endian payload elements, slices of the buffer, the group list of a selector byte, and the domain of
`RESOLVE`'s operands. Pure functions; no state. -/

namespace Sys2Proof.Machine

/-- `hi(w)` (R19). -/
def hi (w : Word16) : Byte := (w >>> 8).setWidth 8

/-- `lo(w)` (R19). -/
def lo (w : Word16) : Byte := w.setWidth 8

/-- `be16(h, l)`: `h` came first (R19, R52). -/
def be16 (h l : Byte) : Word16 := (h.setWidth 16 <<< 8) ||| l.setWidth 16

/-- The bytes of a list of words in stream order, each word high byte first (R52, R170). -/
def wordBytes (ws : List Word16) : List Byte := ws.flatMap fun w => [hi w, lo w]

/-- `s[a..b)` (R19). -/
def slice (s : List Byte) (a b : Nat) : List Byte := (s.drop a).take (b - a)

/-- `le_n(s)` for a sequence of `n` bytes (R19). -/
def leNat : List Byte → Nat
  | [] => 0
  | b :: s => b.toNat + 256 * leNat s

/-- `bytes_le_n(v)` (R19). -/
def bytesLe : Nat → Nat → List Byte
  | 0, _ => []
  | n + 1, v => BitVec.ofNat 8 v :: bytesLe n (v / 256)

/-- The payload element of `w` bits at payload offset `o` (R53, R79). -/
def element (w : Nat) (p : List Byte) (o : Nat) : BitVec w := BitVec.ofNat w (leNat (slice p o (o + w / 8)))

/-- `GROUPS(sel)`: the ascending list of the set bits among bits 0 to 6; bit 7 is ignored (R72, R132). -/
def groupsOf (sel : Byte) : List Nat := (List.range Config.groupBits).filter fun i => sel.getLsbD i

/-- `HDRLEN(sel)` (R74, R133). -/
def hdrLenOf (sel : Byte) : Nat := 2 + 2 * (groupsOf sel).length

/-- The last two bytes of a complete frame as the received checksum (R79, R108). -/
def receivedChecksum (buf : List Byte) : Word16 :=
  be16 (buf.getD (buf.length - 2) 0) (buf.getD (buf.length - 1) 0)

/-- The bytes of a complete frame that the checksum covers: all but the sync byte and the checksum itself (R78, R79). -/
def checksumInput (buf : List Byte) : List Byte := slice buf 1 (buf.length - Config.checksumLen)

/-- The domain of `RESOLVE(gs, fb)`: group indices below 7 in strictly ascending order, so none repeated, and
two selector bytes for each (R134, R135, decision D15, 93_implementation_defined.md U11, assumption log 14). -/
def resolveDomain (gs : List Nat) (fb : List Byte) : Bool :=
  gs.all (fun g => g < Config.groupBits) && decide (gs.Pairwise (· < ·)) && fb.length == 2 * gs.length

/-- The domain of `BUILD`'s operands: one field selector for each selected group (R170). -/
def buildDomain (sel : Byte) (words : List Word16) : Bool := words.length == (groupsOf sel).length

end Sys2Proof.Machine
end

