-- ==== Sys2Proof/Syntax.lean ====
section
/-! DEFINITION. The instructions: one constructor per row of spec/opcode_table.json, with the operands the row's rule
gives it. -/

namespace Sys2Proof

/-- The operations of the framer (R12). `b` is the byte fed. -/
inductive Instr where
  /-- `FEED.SYNC_HIT` (R102): the byte is `SYNC`, so the row has no other operand. -/
  | feedSyncHit
  /-- `FEED.SYNC_MISS` (R103): any byte but `SYNC`. -/
  | feedSyncMiss (b : Byte)
  /-- `FEED.GSEL` (R104). -/
  | feedGsel (b : Byte)
  /-- `FEED.FSEL` (R105). -/
  | feedFsel (b : Byte)
  /-- `FEED.PAY` (R107). -/
  | feedPay (b : Byte)
  /-- `HDR_CHECK` (R106), part of a `FEED` step. -/
  | hdrCheck
  /-- `FRAME_CHECK` (R108), part of a `FEED` step. -/
  | frameCheck
  /-- `FEEDN` (R110). -/
  | feedN (bytes : List Byte)
  /-- `IDLE` (R111). -/
  | idle
  /-- `RESET` (R112). -/
  | reset
  /-- `GROUPS(sel)` (R132). -/
  | groups (sel : Byte)
  /-- `HDRLEN(sel)` (R133). -/
  | hdrlen (sel : Byte)
  /-- `RESOLVE(gs, fb)` (R134); the domain of the operands is R135's. -/
  | resolve (gs : List Nat) (fb : List Byte)
  /-- `CRC_STEP(acc, b)` (R141). -/
  | crcStep (acc : Word16) (b : Byte)
  /-- `CRC16(bytes)` (R142). -/
  | crc16 (bytes : List Byte)
  /-- `CRC_VERIFY(bytes, rx)` (R143). -/
  | crcVerify (bytes : List Byte) (rx : Word16)
  /-- `UNPACK(payload)` (R154). -/
  | unpack (payload : List Byte)
  /-- `PACK(record)` (R155). -/
  | pack (record : TelemetryRecord)
  /-- `BUILD(sel, words, payload)` (R170). -/
  | build (sel : Byte) (words : List Word16) (payload : List Byte)
  /-- `BUILD_REF(record)` (R171). -/
  | buildRef (record : TelemetryRecord)
deriving DecidableEq, Repr

end Sys2Proof
end

