-- ==== Sys2Proof/WellFormed.lean ====
section
/-! DEFINITION. Which instructions are well formed: the three operand checks the spec states. -/

namespace Sys2Proof

/-- The operand checks: `FEED.SYNC_MISS` has a byte other than `SYNC` (R103); `RESOLVE` has operands inside its
contract (R135); `BUILD` has one word for each selected group (R170). Every other operand may have any value. -/
def Instr.wf : Instr → Bool
  | .feedSyncMiss b => b != Config.sync
  | .resolve gs fb => Machine.resolveDomain gs fb
  | .build sel words _ => Machine.buildDomain sel words
  | .feedSyncHit => true
  | .feedGsel _ => true
  | .feedFsel _ => true
  | .feedPay _ => true
  | .hdrCheck => true
  | .frameCheck => true
  | .feedN _ => true
  | .idle => true
  | .reset => true
  | .groups _ => true
  | .hdrlen _ => true
  | .crcStep _ _ => true
  | .crc16 _ => true
  | .crcVerify _ _ => true
  | .unpack _ => true
  | .pack _ => true
  | .buildRef _ => true

end Sys2Proof
end

