-- ==== Sys2Proof/Decode.lean ====
section
/-! DEFINITION. What reaches the framer in one step (an event), the operation it decodes to in each parser state
(spec 30_encoding.md R86, R87), and the encoder back. Only the five `FEED` rows have a bit pattern, and it is read
together with the parser state; the other rows are named by their event. -/

namespace Sys2Proof

/-- What the environment delivers for one step (R87, decision D1, assumption log 1). -/
inductive Event where
  /-- One received byte: `FEED(b)`. -/
  | byte (b : Byte)
  /-- A slice of received bytes given in one call: `FEEDN` (R110). -/
  | bytes (bs : List Byte)
  /-- A step with no byte (R111). -/
  | idle
  /-- Construction of the scanner (R112). -/
  | reset
  /-- The host evaluates a function unit on its own, named with its operands (R87, assumption log 4). -/
  | unit (call : Instr)
deriving DecidableEq, Repr

/-- Why an event names no operation. Each is the caller's error: no byte stream produces one. -/
inductive DecodeError where
  /-- A `FEED` row was asked for by name; it is selected by (state, byte) only (R86). -/
  | selectedByByteOnly
  /-- `HDR_CHECK` or `FRAME_CHECK` was asked for by name; neither is a step of its own (R106, R108). -/
  | neverAStepOfItsOwn
  /-- `FEEDN`, `IDLE` or `RESET` was asked for as a function unit; each has its own event (R87). -/
  | notAFunctionUnit
deriving DecidableEq, Repr

/-- The transition `FEED(b)` takes: by the state first and, in `AwaitingSync` only, by the byte (R86). -/
def decodeByte (st : ParserState) (b : Byte) : Instr :=
  match st with
  | .awaitingSync => if b = Config.sync then .feedSyncHit else .feedSyncMiss b
  | .awaitingGroupSelector => .feedGsel b
  | .awaitingFieldSelectors => .feedFsel b
  | .awaitingPayloadAndChecksum => .feedPay b

/-- The operation a host asks for by name: a function unit (R87). -/
def decodeUnit (call : Instr) : Except DecodeError Instr :=
  match call with
  | .feedSyncHit => .error .selectedByByteOnly
  | .feedSyncMiss _ => .error .selectedByByteOnly
  | .feedGsel _ => .error .selectedByByteOnly
  | .feedFsel _ => .error .selectedByByteOnly
  | .feedPay _ => .error .selectedByByteOnly
  | .hdrCheck => .error .neverAStepOfItsOwn
  | .frameCheck => .error .neverAStepOfItsOwn
  | .feedN _ => .error .notAFunctionUnit
  | .idle => .error .notAFunctionUnit
  | .reset => .error .notAFunctionUnit
  | .groups sel => .ok (.groups sel)
  | .hdrlen sel => .ok (.hdrlen sel)
  | .resolve gs fb => .ok (.resolve gs fb)
  | .crcStep acc b => .ok (.crcStep acc b)
  | .crc16 bytes => .ok (.crc16 bytes)
  | .crcVerify bytes rx => .ok (.crcVerify bytes rx)
  | .unpack payload => .ok (.unpack payload)
  | .pack record => .ok (.pack record)
  | .build sel words payload => .ok (.build sel words payload)
  | .buildRef record => .ok (.buildRef record)

/-- The decoder: total on every state and event (R86, R87). -/
def decode (st : ParserState) (ev : Event) : Except DecodeError Instr :=
  match ev with
  | .byte b => .ok (decodeByte st b)
  | .bytes bs => .ok (.feedN bs)
  | .idle => .ok .idle
  | .reset => .ok .reset
  | .unit call => decodeUnit call

/-- The event that stands for the `nbits` bits of `w` numbered as opcode_table.json numbers them: a `FEED` row has
8 bits, one byte, and no other row has any (R87, assumption log 21). -/
def wordEvents (nbits w : Nat) : List Event :=
  if nbits = 8 ∧ w < 256 then [.byte (BitVec.ofNat 8 w)] else []

/-- The instruction the decoder reads from a table word, in the state the machine has right after reset: the table's
bits do not name the parser state (R86, assumption log 21). -/
def decodeTableWord (nbits w : Nat) : Option Instr :=
  match wordEvents nbits w with
  | [ev] => (decode .awaitingSync ev).toOption
  | _ => none

/-- The state column of the decode table (R86): the parser state in which a row is selected; none for a row that does
not depend on it. -/
def Instr.selectingState : Instr → Option ParserState
  | .feedSyncHit => some .awaitingSync
  | .feedSyncMiss _ => some .awaitingSync
  | .feedGsel _ => some .awaitingGroupSelector
  | .feedFsel _ => some .awaitingFieldSelectors
  | .feedPay _ => some .awaitingPayloadAndChecksum
  | .hdrCheck => none
  | .frameCheck => none
  | .feedN _ => none
  | .idle => none
  | .reset => none
  | .groups _ => none
  | .hdrlen _ => none
  | .resolve _ _ => none
  | .crcStep _ _ => none
  | .crc16 _ => none
  | .crcVerify _ _ => none
  | .unpack _ => none
  | .pack _ => none
  | .build _ _ _ => none
  | .buildRef _ => none

/-- The encoder: the event that selects an instruction (in its `selectingState` where it has one). `HDR_CHECK` and
`FRAME_CHECK` have none: they run inside a `FEED` step only (R106, R108). -/
def encode : Instr → Option Event
  | .feedSyncHit => some (.byte Config.sync)
  | .feedSyncMiss b => some (.byte b)
  | .feedGsel b => some (.byte b)
  | .feedFsel b => some (.byte b)
  | .feedPay b => some (.byte b)
  | .hdrCheck => none
  | .frameCheck => none
  | .feedN bytes => some (.bytes bytes)
  | .idle => some .idle
  | .reset => some .reset
  | .groups sel => some (.unit (.groups sel))
  | .hdrlen sel => some (.unit (.hdrlen sel))
  | .resolve gs fb => some (.unit (.resolve gs fb))
  | .crcStep acc b => some (.unit (.crcStep acc b))
  | .crc16 bytes => some (.unit (.crc16 bytes))
  | .crcVerify bytes rx => some (.unit (.crcVerify bytes rx))
  | .unpack payload => some (.unit (.unpack payload))
  | .pack record => some (.unit (.pack record))
  | .build sel words payload => some (.unit (.build sel words payload))
  | .buildRef record => some (.unit (.buildRef record))

end Sys2Proof
end

