-- ==== Sys2Proof/Machine/State.lean ====
section
/-! DEFINITION. The state of one scanner as plain data, the outputs of a step, the reasons a step can stop, and the
state right after reset (spec 10_state.md R20 to R39). -/

namespace Sys2Proof.Machine

/-- The width of a counter is `CNT_W` (R31). -/
abbrev Counter := BitVec Config.cntW

/-- The causes of a `HeaderError` (R180). -/
inductive HeaderCause where
  | badSync
  | badLength
deriving DecidableEq, Repr

/-- The error classes a step can raise (R180); the cause is the label's, not stored state (R187). -/
inductive ErrorClass where
  | headerError (cause : HeaderCause)
  | checksumError
deriving DecidableEq, Repr

/-- The outcome labels (R101): which path a step took. -/
inductive Label where
  | sync
  | heSync
  | gsel
  | fsel
  | hdrOk
  | heLen
  | pay
  | ok
  | ce
  | idle
  | reset
deriving DecidableEq, Repr

/-- `FrameEvent` (R33): the one event, carrying the payload bytes. -/
inductive FrameEvent where
  | frameComplete (payload : List Byte)
deriving DecidableEq, Repr

/-- The value a function unit returns to the host that evaluated it (R87, R88). -/
inductive UnitValue where
  /-- `GROUPS` (R132). -/
  | groups (gs : List Nat)
  /-- `HDRLEN` and `RESOLVE`: a number of bytes (R133, R134). -/
  | length (n : Nat)
  /-- `CRC_STEP` and `CRC16` (R141, R142). -/
  | word (w : Word16)
  /-- `CRC_VERIFY` (R143). -/
  | verdict (equal : Bool)
  /-- `UNPACK` of 144 bytes (R154). -/
  | record (r : TelemetryRecord)
  /-- `UNPACK` of any other length: the error is the returned value (R157, R185). -/
  | error (e : CodecError)
  /-- `PACK`, `BUILD` and `BUILD_REF` (R155, R170, R171). -/
  | bytes (bs : List Byte)
deriving DecidableEq, Repr

/-- The outputs of one step: its labels and events in order (one `FEED` has one label and at most one event; `FEEDN`
has those of all its bytes, R110) and the value of a function unit. Not scanner state (R33, assumption log 3). -/
structure StepOut where
  labels : List Label := []
  events : List FrameEvent := []
  value  : Option UnitValue := none
deriving DecidableEq, Repr

/-- The machine. The first eleven fields are the elements of R20. `out` holds the outputs of the last step and
`input` the events delivered and not yet taken, oldest first; both are the model's own (assumption log 1, 3). -/
structure State where
  state       : ParserState
  buf         : List Byte
  gsel        : Byte
  groups      : List Nat
  hdrLen      : Nat
  payLen      : Nat
  okCount     : Counter
  hdrErrCount : Counter
  crcErrCount : Counter
  record      : Option TelemetryRecord
  recValid    : Bool
  out         : StepOut
  input       : List Event
deriving DecidableEq, Repr

/-- Faults: none. "No condition inside the core is fatal" (R14, R180), so the type has no constructor and no step can
end in one (safe: nothing is proved from a fault; assumption log 19). -/
inductive Fault where
deriving DecidableEq, Repr

/-- Refusals: the operation has no meaning for these operands in this state. -/
inductive Refusal where
  /-- An instruction that has no meaning yet: raised by the arms of `exec` only. Safe. -/
  | notModelled (mnemonic : String)
  /-- A row executed in a state where its own `require` line is false (R102 to R108): raised by the `FEED` rows,
  `HDR_CHECK` and `FRAME_CHECK`; the decoder never selects a `FEED` row so (R86). Safe (assumption log 16). -/
  | requireFails
  /-- Operands outside the domain the spec gives the operation: raised by `RESOLVE` (R135) and `BUILD` (R170), and by
  the two checks in states no run reaches (assumption log 20). Safe. -/
  | outsideDomain
  /-- An event that names no operation: raised by `step` (R87, assumption log 4). Safe. -/
  | noSuchOperation (e : DecodeError)
deriving DecidableEq, Repr

/-- What executing an operation answers. -/
abbrev Result := Host.Outcome State Fault Refusal

/-- The machine right after construction (R38). `gsel`, `groups`, `hdrLen` and `payLen` are unspecified there and the
values here are the model's (assumption log 5); `record` has no value while `recValid` is false (decision D10,
assumption log 6). -/
def State.reset : State where
  state       := .awaitingSync
  buf         := []
  gsel        := 0x00
  groups      := []
  hdrLen      := 0
  payLen      := 0
  okCount     := 0
  hdrErrCount := 0
  crcErrCount := 0
  record      := none
  recValid    := false
  out         := { labels := [], events := [], value := none }
  input       := []

end Sys2Proof.Machine
end

