-- ==== Sys2Proof/Machine/Flags.lean ====
section
/-! DEFINITION. The status of the scanner: the three saturating counters, the record with its valid flag, the labels'
error classes and the debug number of the parser state (spec 10_state.md R29 to R34, 60_exceptions.md R180). -/

namespace Sys2Proof.Machine

/-- An increment of a counter of `w` bits, saturating at `2^w - 1` (R31, decision D3, assumption log 8). -/
def satInc {w : Nat} (c : BitVec w) : BitVec w := if c = BitVec.allOnes w then c else c + 1#w

/-- `ok_count <- ok_count + 1` (R30). -/
def State.countOk (s : State) : State := { s with okCount := satInc s.okCount }

/-- `hdr_err_count <- hdr_err_count + 1` (R30). -/
def State.countHdrErr (s : State) : State := { s with hdrErrCount := satInc s.hdrErrCount }

/-- `crc_err_count <- crc_err_count + 1` (R30). -/
def State.countCrcErr (s : State) : State := { s with crcErrCount := satInc s.crcErrCount }

/-- `record <- r; rec_valid <- 1` (R32, R108). -/
def State.storeRecord (r : TelemetryRecord) (s : State) : State := { s with record := some r, recValid := true }

/-- The host's read of the record: refused (no value) while `rec_valid` is 0 (R32, decision D10). -/
def State.readRecord (s : State) : Option TelemetryRecord := if s.recValid then s.record else none

/-- The label of the step that raises a header error (R101, R103, R106). -/
def HeaderCause.label : HeaderCause → Label
  | .badSync => .heSync
  | .badLength => .heLen

/-- The error a label stands for, if any (R180, R187). -/
def Label.errorClass : Label → Option ErrorClass
  | .heSync => some (.headerError .badSync)
  | .heLen => some (.headerError .badLength)
  | .ce => some .checksumError
  | .sync => none
  | .gsel => none
  | .fsel => none
  | .hdrOk => none
  | .pay => none
  | .ok => none
  | .idle => none
  | .reset => none

/-- The debug output of the parser state (R21, R197, decision D11). No operation reads it. -/
def State.debugState (s : State) : BitVec 2 :=
  match s.state with
  | .awaitingSync => 0
  | .awaitingGroupSelector => 1
  | .awaitingFieldSelectors => 2
  | .awaitingPayloadAndChecksum => 3

end Sys2Proof.Machine
end

