-- ==== Sys2Proof/Machine/Ops.lean ====
section
/-! DEFINITION. The named operations over the state: the frame buffer, the sequencer, the outputs, the two error
entries (spec 60_exceptions.md R183, R184), and taking the next event. There is no return operation beside the error
entries, because there is nothing to return to (R191). -/

namespace Sys2Proof.Machine

/-- `append(b)`, the one form of write to the buffer (R19, R23). -/
def State.appendByte (b : Byte) (s : State) : State := { s with buf := s.buf ++ [b] }

/-- The offset the next `append` stores to (R22, R50). -/
def State.appendAddr (s : State) : Nat := s.buf.length

/-- `clear` (R19, R23). -/
def State.clearBuf (s : State) : State := { s with buf := [] }

/-- The model's read of one byte of the buffer: at or beyond `len(buf)` there is none (R19, R50, assumption log 9). -/
def State.readByte (s : State) (a : Nat) : Option Byte := s.buf[a]?

/-- The buffer as a list of (offset, byte) cells (assumption log 9). -/
def State.cells (s : State) : List Host.Cell := s.buf.zipIdx.map fun p => (p.2, p.1)

/-- The canonical form of a cell list: offsets strictly rising. An unlisted offset has no value, so no cell can equal
what an unlisted offset reads as. -/
abbrev Memory.wf (m : List Host.Cell) : Prop := m.Pairwise fun x y => x.1 < y.1

/-- `state <- p` (R19). -/
def State.enter (p : ParserState) (s : State) : State := { s with state := p }

/-- What `FEED.GSEL` derives from the group selector, once per frame (R26, R27, R104). -/
def State.takeSelector (b : Byte) (s : State) : State :=
  { s with gsel := b, groups := groupsOf b, hdrLen := 2 + 2 * (groupsOf b).length }

/-- `pay_len <- n` (R28, R106). -/
def State.takePayLen (n : Nat) (s : State) : State := { s with payLen := n }

/-- `buf <- []; state <- AS`: how every frame attempt ends (R108, R109, R183, R184). -/
def State.endFrame (s : State) : State := { s with buf := [], state := .awaitingSync }

/-- The outputs of the step, replacing the previous step's (R33). -/
def State.emit (o : StepOut) (s : State) : State := { s with out := o }

/-- The outputs of a step that takes the path `l` and emits no event (R19, R101). -/
def StepOut.ofLabel (l : Label) : StepOut := { labels := [l] }

/-- The outputs of the evaluation of a function unit (assumption log 4). -/
def StepOut.ofValue (v : UnitValue) : StepOut := { value := some v }

/-- The outputs of two steps taken one after the other in one call: labels and events in order (R110). -/
def StepOut.append (o o' : StepOut) : StepOut :=
  { labels := o.labels ++ o'.labels, events := o.events ++ o'.events, value := o'.value }

/-- `raise HeaderError(cause)` (R183). -/
def raiseHeaderError (cause : HeaderCause) (s : State) : State :=
  s.countHdrErr.endFrame.emit (.ofLabel cause.label)

/-- `raise ChecksumError` (R184). -/
def raiseChecksumError (s : State) : State := s.countCrcErr.endFrame.emit (.ofLabel .ce)

/-- A function unit's evaluation: it returns a value and touches nothing of the scanner (R87, R88). -/
def returnValue (v : UnitValue) (s : State) : Result := .next (s.emit (.ofValue v))

/-- One operation after another, stopping where the first stops. -/
def andThen (r : Result) (f : State → Result) : Result :=
  match r with
  | .next s => f s
  | .fault e => .fault e
  | .refused e => .refused e

/-- Takes the oldest waiting event; with none waiting the step is `IDLE` (R111, assumption log 2). -/
def takeEvent (s : State) : Event × State :=
  match s.input with
  | [] => (.idle, s)
  | ev :: rest => (ev, { s with input := rest })

/-- Delivers events ahead of those that wait. -/
def State.deliver (evs : List Event) (s : State) : State := { s with input := evs ++ s.input }

end Sys2Proof.Machine
end

