-- ==== Sys2Proof/Machine/Checksum.lean ====
section
/-! DEFINITION. ChecksumEngine (spec 43_checksum.md): the checksum step, the fold over bytes, the comparison, and the
units `CRC_STEP`, `CRC16`, `CRC_VERIFY`. -/

namespace Sys2Proof.Machine

/-- `CRC_STEP(acc, b)`: five updates, each reading what the one before left (R141, decision D8, assumption log 12). -/
def crcStep (acc : Word16) (b : Byte) : Word16 :=
  let a1 := (acc >>> 8) ||| (acc <<< 8)
  let a2 := a1 ^^^ b.setWidth 16
  let a3 := a2 ^^^ ((a2 &&& 0x00FF#16) >>> 4)
  let a4 := a3 ^^^ (a3 <<< 12)
  a4 ^^^ ((a4 &&& 0x00FF#16) <<< 5)

/-- `CRC16(bytes)`: the left fold of `CRC_STEP` from `CRC_INIT` (R142). -/
def crc16 (bytes : List Byte) : Word16 := bytes.foldl crcStep Config.crcInit

/-- `CRC_VERIFY(bytes, rx)` (R143). -/
def crcVerify (bytes : List Byte) (rx : Word16) : Bool := crc16 bytes == rx

/-- `CRC_STEP` (R141). -/
def execCrcStep (acc : Word16) (b : Byte) (s : State) : Result := returnValue (.word (crcStep acc b)) s

/-- `CRC16` (R142). -/
def execCrc16 (bytes : List Byte) (s : State) : Result := returnValue (.word (crc16 bytes)) s

/-- `CRC_VERIFY` (R143). -/
def execCrcVerify (bytes : List Byte) (rx : Word16) (s : State) : Result :=
  returnValue (.verdict (crcVerify bytes rx)) s

end Sys2Proof.Machine
end

