-- ==== Sys2Proof/Machine/Codec.lean ====
section
/-! DEFINITION. TelemetryCodec (spec 44_telemetry_codec.md): the element table, decode and encode, and the units
`UNPACK`, `PACK`. -/

namespace Sys2Proof.Machine

/-- The record cut from a payload: each element read at its offset, little-endian (R151 to R154). -/
def recordOf (p : List Byte) : TelemetryRecord where
  timestamp   := element 64 p 0
  orientation := ⟨element 32 p 8, element 32 p 12, element 32 p 16⟩
  angularRate := ⟨element 32 p 20, element 32 p 24, element 32 p 28⟩
  position    := ⟨element 64 p 32, element 64 p 40, element 64 p 48⟩
  g0f7        := ⟨element 32 p 56, element 32 p 60, element 32 p 64⟩
  g0f8        := ⟨element 32 p 68, element 32 p 72, element 32 p 76⟩
  g3f1        := element 64 p 80
  g3f3        := element 8 p 88
  g3f4        := element 8 p 89
  g3f9        := ⟨element 32 p 90, element 32 p 94, element 32 p 98⟩
  g3f10       := element 32 p 102
  g4f6        := ⟨element 32 p 106, element 32 p 110, element 32 p 114⟩
  g4f8        := ⟨element 32 p 118, element 32 p 122, element 32 p 126⟩
  status      := element 16 p 130
  tail        := ⟨element 32 p 132, element 32 p 136, element 32 p 140⟩

/-- `UNPACK(payload)` (R154); any length but 144 is an error (R157). -/
def unpack (p : List Byte) : Except CodecError TelemetryRecord :=
  if p.length = Config.expectedPayloadLen then .ok (recordOf p) else .error (.lengthMismatch p.length)

/-- The element table of R153 for one record: offset, size in bytes and value of each of the 33 elements, in offset
order. -/
def elementTable (r : TelemetryRecord) : List (Nat × Nat × Nat) :=
  [(0, 8, r.timestamp.toNat),
   (8, 4, r.orientation.e0.toNat), (12, 4, r.orientation.e1.toNat), (16, 4, r.orientation.e2.toNat),
   (20, 4, r.angularRate.e0.toNat), (24, 4, r.angularRate.e1.toNat), (28, 4, r.angularRate.e2.toNat),
   (32, 8, r.position.e0.toNat), (40, 8, r.position.e1.toNat), (48, 8, r.position.e2.toNat),
   (56, 4, r.g0f7.e0.toNat), (60, 4, r.g0f7.e1.toNat), (64, 4, r.g0f7.e2.toNat),
   (68, 4, r.g0f8.e0.toNat), (72, 4, r.g0f8.e1.toNat), (76, 4, r.g0f8.e2.toNat),
   (80, 8, r.g3f1.toNat), (88, 1, r.g3f3.toNat), (89, 1, r.g3f4.toNat)] ++
  [(90, 4, r.g3f9.e0.toNat), (94, 4, r.g3f9.e1.toNat), (98, 4, r.g3f9.e2.toNat),
   (102, 4, r.g3f10.toNat),
   (106, 4, r.g4f6.e0.toNat), (110, 4, r.g4f6.e1.toNat), (114, 4, r.g4f6.e2.toNat),
   (118, 4, r.g4f8.e0.toNat), (122, 4, r.g4f8.e1.toNat), (126, 4, r.g4f8.e2.toNat),
   (130, 2, r.status.toNat),
   (132, 4, r.tail.e0.toNat), (136, 4, r.tail.e1.toNat), (140, 4, r.tail.e2.toNat)]

/-- `PACK(record)`: the elements tile the 144 bytes in offset order with no padding, each little-endian (R155). -/
def pack (r : TelemetryRecord) : List Byte := (elementTable r).flatMap fun e => bytesLe e.2.1 e.2.2

/-- `UNPACK` (R154); a length other than 144 returns the error and changes nothing else (R157, R185, assumption log
18). -/
def execUnpack (payload : List Byte) (s : State) : Result :=
  match unpack payload with
  | .ok r => returnValue (.record r) s
  | .error e => returnValue (.error e) s

/-- `PACK` (R155). -/
def execPack (record : TelemetryRecord) (s : State) : Result := returnValue (.bytes (pack record)) s

end Sys2Proof.Machine
end

