-- ==== Sys2Proof/Machine/Builder.lean ====
section
/-! DEFINITION. The frame builder (spec 45_frame_builder.md): the transmit side, units `BUILD`, `BUILD_REF`. -/

namespace Sys2Proof.Machine

/-- The bytes of a frame under the checksum: group selector, field selectors, payload (R78, R170). -/
def frameBody (sel : Byte) (words : List Word16) (payload : List Byte) : List Byte :=
  sel :: (wordBytes words ++ payload)

/-- `BUILD(sel, words, payload)` on its domain (R170): sync, body, checksum high byte first. -/
def buildFrame (sel : Byte) (words : List Word16) (payload : List Byte) : List Byte :=
  let c := crc16 (frameBody sel words payload)
  Config.sync :: (frameBody sel words payload ++ [hi c, lo c])

/-- `BUILD_REF(record)` (R171). -/
def buildRefFrame (r : TelemetryRecord) : List Byte := buildFrame Config.refGroupSel Config.refFieldSel (pack r)

/-- `BUILD` (R170); a word list of the wrong length is outside its domain (assumption log 15). -/
def execBuild (sel : Byte) (words : List Word16) (payload : List Byte) (s : State) : Result :=
  if buildDomain sel words then returnValue (.bytes (buildFrame sel words payload)) s else .refused .outsideDomain

/-- `BUILD_REF` (R171). -/
def execBuildRef (record : TelemetryRecord) (s : State) : Result := returnValue (.bytes (buildRefFrame record)) s

end Sys2Proof.Machine
end

