-- ==== Sys2Proof/Machine/Resolver.lean ====
section
/-! DEFINITION. GroupLengthResolver (spec 42_length_resolver.md): the width table, the payload length, and the units
`GROUPS`, `HDRLEN`, `RESOLVE`. -/

namespace Sys2Proof.Machine

/-- The width row of group 6, which the source does not give: sixteen zeros (R131, decision D6, assumption log 11). -/
def widthRow6 : List Nat := [0, 0, 0, 0, 0, 0, 0, 0, 0, 0, 0, 0, 0, 0, 0, 0]

/-- `WIDTH[g][j]`, row `g`, column `j` from the left (R131). -/
def widthTable : List (List Nat) :=
  [[8, 8, 8, 12, 16, 12, 24, 12, 12, 24, 20, 28, 2, 4, 8, 0],
   [8, 8, 8, 2, 8, 8, 8, 4, 0, 0, 0, 0, 0, 0, 0, 0],
   [2, 12, 12, 12, 4, 4, 16, 12, 12, 12, 12, 2, 40, 0, 0, 0],
   [8, 8, 2, 1, 1, 24, 24, 12, 12, 12, 4, 4, 32, 0, 0, 0],
   [2, 12, 16, 36, 12, 12, 12, 12, 12, 12, 28, 24, 0, 0, 0, 0],
   [2, 24, 24, 12, 12, 12, 12, 12, 12, 4, 4, 68, 64, 0, 0, 0],
   widthRow6]

/-- The width of field `j` of group `g` (R131). -/
def widthOf (g j : Nat) : Nat := (widthTable.getD g []).getD j 0

/-- The bytes one group's mask adds: bit `j` has weight `2^j` (R134). -/
def maskWidth (g : Nat) (m : Word16) : Nat :=
  ((List.range Config.fieldBits).map fun j => if m.getLsbD j then widthOf g j else 0).sum

/-- The running total of R134 over the groups and their pairs of selector bytes. -/
def totalWidth : List Nat → List Byte → Nat
  | g :: gs, h :: l :: fb => maskWidth g (be16 h l) + totalWidth gs fb
  | _, _ => 0

/-- `RESOLVE(gs, fb)`: the full sum, and no number outside the domain (R134, R135, R136). -/
def resolve (gs : List Nat) (fb : List Byte) : Option Nat :=
  if resolveDomain gs fb then some (totalWidth gs fb) else none

/-- `GROUPS` (R132). -/
def execGroups (sel : Byte) (s : State) : Result := returnValue (.groups (groupsOf sel)) s

/-- `HDRLEN` (R133). -/
def execHdrlen (sel : Byte) (s : State) : Result := returnValue (.length (hdrLenOf sel)) s

/-- `RESOLVE` (R134); refused outside its domain (R135). -/
def execResolve (gs : List Nat) (fb : List Byte) (s : State) : Result :=
  match resolve gs fb with
  | some n => returnValue (.length n) s
  | none => .refused .outsideDomain

end Sys2Proof.Machine
end

