-- ==== Sys2Proof/Machine/Scanner.lean ====
section
/-! DEFINITION. FrameScanner (spec 41_framescanner.md): the two checks, the five `FEED` transitions, `FEEDN`, `IDLE`
and `RESET`. -/

namespace Sys2Proof.Machine

/-- The header check (R106): the resolved length, and only it, decides. -/
def checkHeader (s : State) : Result :=
  if s.buf.length = s.hdrLen then
    match resolve s.groups (slice s.buf 2 s.hdrLen) with
    | some n =>
      if n = Config.expectedPayloadLen then
        .next (((s.takePayLen n).enter .awaitingPayloadAndChecksum).emit (.ofLabel .hdrOk))
      else
        .next (raiseHeaderError .badLength s)
    | none => .refused .outsideDomain
  else
    .refused .requireFails

/-- A frame whose checksum verified: count it, replace the record, emit the event (R108). -/
def completeFrame (payload : List Byte) (r : TelemetryRecord) (s : State) : State :=
  ((s.countOk.storeRecord r).endFrame).emit { labels := [.ok], events := [.frameComplete payload] }

/-- The frame check (R108). -/
def checkFrame (s : State) : Result :=
  if s.buf.length = s.hdrLen + s.payLen + Config.checksumLen then
    if crcVerify (checksumInput s.buf) (receivedChecksum s.buf) then
      match unpack (slice s.buf s.hdrLen (s.hdrLen + s.payLen)) with
      | .ok r => .next (completeFrame (slice s.buf s.hdrLen (s.hdrLen + s.payLen)) r s)
      | .error _ => .refused .outsideDomain
    else
      .next (raiseChecksumError s)
  else
    .refused .requireFails

/-- `HDR_CHECK` (R106). -/
def execHdrCheck (s : State) : Result := checkHeader s

/-- `FRAME_CHECK` (R108). -/
def execFrameCheck (s : State) : Result := checkFrame s

/-- `FEED.SYNC_HIT` (R102). -/
def execFeedSyncHit (s : State) : Result :=
  if s.state = .awaitingSync then
    .next (((s.clearBuf.appendByte Config.sync).enter .awaitingGroupSelector).emit (.ofLabel .sync))
  else
    .refused .requireFails

/-- `FEED.SYNC_MISS` (R103). -/
def execFeedSyncMiss (b : Byte) (s : State) : Result :=
  if s.state = .awaitingSync ∧ b ≠ Config.sync then .next (raiseHeaderError .badSync s) else .refused .requireFails

/-- `FEED.GSEL` (R104): the header check runs in the same step when no group bit is set (decision D5, assumption log
10). -/
def execFeedGsel (b : Byte) (s : State) : Result :=
  if s.state = .awaitingGroupSelector then
    let t := ((s.appendByte b).takeSelector b).enter .awaitingFieldSelectors
    if t.buf.length = t.hdrLen then checkHeader t else .next (t.emit (.ofLabel .gsel))
  else
    .refused .requireFails

/-- `FEED.FSEL` (R105). -/
def execFeedFsel (b : Byte) (s : State) : Result :=
  if s.state = .awaitingFieldSelectors then
    let t := s.appendByte b
    if t.buf.length = t.hdrLen then checkHeader t else .next (t.emit (.ofLabel .fsel))
  else
    .refused .requireFails

/-- `FEED.PAY` (R107). -/
def execFeedPay (b : Byte) (s : State) : Result :=
  if s.state = .awaitingPayloadAndChecksum then
    let t := s.appendByte b
    if t.buf.length = t.hdrLen + t.payLen + Config.checksumLen then checkFrame t
    else .next (t.emit (.ofLabel .pay))
  else
    .refused .requireFails

/-- `FEED(b)`: the transition chosen by the state and, in `AwaitingSync`, the byte (R86, R100). -/
def feed (b : Byte) (s : State) : Result :=
  match s.state with
  | .awaitingSync => if b = Config.sync then execFeedSyncHit s else execFeedSyncMiss b s
  | .awaitingGroupSelector => execFeedGsel b s
  | .awaitingFieldSelectors => execFeedFsel b s
  | .awaitingPayloadAndChecksum => execFeedPay b s

/-- The in-order fold of `FEED`, with the outputs of its steps in order (R110, decision D12, assumption log 17). -/
def feedAll : List Byte → State → Result
  | [], s => .next (s.emit {})
  | b :: rest, s => andThen (feed b s) fun t => andThen (feedAll rest t) fun u => .next (u.emit (t.out.append u.out))

/-- `FEEDN` (R110). -/
def execFeedN (bytes : List Byte) (s : State) : Result := feedAll bytes s

/-- `IDLE`: no change, event output `None` (R111). -/
def execIdle (s : State) : Result := .next (s.emit (.ofLabel .idle))

/-- `RESET`: construction, in any state; what the environment has yet to deliver is not the scanner's and stays
(R112, R201, decision D2, assumption log 7). -/
def execReset (s : State) : Result := .next ((State.reset.deliver s.input).emit (.ofLabel .reset))

end Sys2Proof.Machine
end

