-- ==== Sys2Proof/Machine/Dispatch.lean ====
section
/-! DEFINITION. Which meaning each instruction has: one arm per row of spec/opcode_table.json. -/

namespace Sys2Proof.Machine

def exec (i : Instr) (s : State) : Host.Outcome State Fault Refusal :=
  match i with
  | .feedSyncHit => Sys2Proof.Machine.execFeedSyncHit s
  | .feedSyncMiss b => Sys2Proof.Machine.execFeedSyncMiss b s
  | .feedGsel b => Sys2Proof.Machine.execFeedGsel b s
  | .feedFsel b => Sys2Proof.Machine.execFeedFsel b s
  | .feedPay b => Sys2Proof.Machine.execFeedPay b s
  | .hdrCheck => Sys2Proof.Machine.execHdrCheck s
  | .frameCheck => Sys2Proof.Machine.execFrameCheck s
  | .feedN bytes => Sys2Proof.Machine.execFeedN bytes s
  | .idle => Sys2Proof.Machine.execIdle s
  | .reset => Sys2Proof.Machine.execReset s
  | .groups sel => Sys2Proof.Machine.execGroups sel s
  | .hdrlen sel => Sys2Proof.Machine.execHdrlen sel s
  | .resolve gs fb => Sys2Proof.Machine.execResolve gs fb s
  | .crcStep acc b => Sys2Proof.Machine.execCrcStep acc b s
  | .crc16 bytes => Sys2Proof.Machine.execCrc16 bytes s
  | .crcVerify bytes rx => Sys2Proof.Machine.execCrcVerify bytes rx s
  | .unpack payload => Sys2Proof.Machine.execUnpack payload s
  | .pack record => Sys2Proof.Machine.execPack record s
  | .build sel words payload => Sys2Proof.Machine.execBuild sel words payload s
  | .buildRef record => Sys2Proof.Machine.execBuildRef record s

end Sys2Proof.Machine
end

