-- ==== Sys2Proof/Machine/Step.lean ====
section
/-! DEFINITION. One step of the machine: take the oldest event, decode it in the parser state, run it. -/

namespace Sys2Proof.Machine

/-- One step (R59, decision D1): events are taken in the order received; with none waiting the step is `IDLE`. -/
def step (s : State) : Host.Outcome State Fault Refusal :=
  match decode (takeEvent s).2.state (takeEvent s).1 with
  | .ok i => exec i (takeEvent s).2
  | .error e => .refused (.noSuchOperation e)

/-- The state with the instruction whose table bits are `w` delivered as the next event, ahead of those that wait. A
table word is one byte of the stream (assumption log 2, 21). -/
def State.withFetchWord (s : State) (nbits w : Nat) : State := s.deliver (wordEvents nbits w)

end Sys2Proof.Machine
end

