-- ==== Sys2Proof/Safety.lean ====
section
/-! DEFINITION. What a safe state is: the invariants the spec states between steps (10_state.md R24), in the terms the
statements use. -/

namespace Sys2Proof.Machine

/-- What holds of the header of the frame in progress in `AF` and `AP` (R24). -/
abbrev State.headerHeld (s : State) : Prop :=
  s.buf[0]? = some Config.sync ∧ s.buf[1]? = some s.gsel ∧ s.groups = groupsOf s.gsel ∧ 1 ≤ s.groups.length ∧
    s.hdrLen = 2 + 2 * s.groups.length

/-- The invariants of R24, row by row, and that a record is held exactly when `rec_valid` is 1 (R32, D10). -/
abbrev State.Inv (s : State) : Prop :=
  (s.state = .awaitingSync → s.buf = []) ∧
  (s.state = .awaitingGroupSelector → s.buf = [Config.sync]) ∧
  (s.state = .awaitingFieldSelectors → s.headerHeld ∧ 2 ≤ s.buf.length ∧ s.buf.length < s.hdrLen) ∧
  (s.state = .awaitingPayloadAndChecksum →
    s.headerHeld ∧ s.hdrLen ≤ s.buf.length ∧ s.buf.length < s.hdrLen + 146 ∧ s.payLen = 144 ∧
      resolve s.groups (slice s.buf 2 s.hdrLen) = some 144) ∧
  s.recValid = s.record.isSome

/-- A step that goes on: it is neither a fault nor a refusal. -/
def completes (r : Result) : Prop := ∃ t, r = .next t

/-- Everything of the scanner but the outputs of the step is the same. -/
def State.sameButOut (s t : State) : Prop := t = { s with out := t.out }

end Sys2Proof.Machine
end

