-- ==== Sys2Proof/Certificates/Slice0/Obligations.lean ====
section
/-! DEFINITION. The statements for the provers, and the reference formulations they compare the model with, written
from the spec's words in another form than the model's. -/

namespace Sys2Proof.Spec

open Sys2Proof.Machine

/-- `trunc16(v)` (00_scope.md R18). -/
def trunc16 (v : Nat) : Nat := v % 65536

/-- `CRC_STEP` on natural numbers, clause by clause (43_checksum.md R141). -/
def crcStepNat (acc b : Nat) : Nat :=
  let a1 := trunc16 ((acc >>> 8) ||| (acc <<< 8))
  let a2 := a1 ^^^ b
  let a3 := a2 ^^^ ((a2 &&& 0x00FF) >>> 4)
  let a4 := a3 ^^^ trunc16 (a3 <<< 12)
  a4 ^^^ ((a4 &&& 0x00FF) <<< 5)

/-- One bit of the bit-serial form: shift, and subtract the polynomial `0x1021` when the top bit was set (R146). -/
def bitStep (x : Word16) : Word16 := if x.getLsbD 15 then (x <<< 1) ^^^ 0x1021#16 else x <<< 1

/-- The bit-serial form of the checksum step (R146). -/
def bitSerial (acc : Word16) (b : Byte) : Word16 := bitStep^[8] (acc ^^^ (b.setWidth 16 <<< 8))

/-- The mask of the `k`-th group among the selector bytes, big-endian, as a number (42_length_resolver.md R134). -/
def maskAt (fb : List Byte) (k : Nat) : Nat := (fb.getD (2 * k) 0).toNat * 256 + (fb.getD (2 * k + 1) 0).toNat

/-- The double sum of R134 over the groups and the 16 fields of each. -/
def widthSum (gs : List Nat) (fb : List Byte) : Nat :=
  ∑ k ∈ Finset.range gs.length, ∑ j ∈ Finset.range 16,
    if (maskAt fb k).testBit j then (widthTable.getD (gs.getD k 0) []).getD j 0 else 0

/-- Offset and size in bytes of every element, from the table of 44_telemetry_codec.md R153. -/
def elementLayout : List (Nat × Nat) :=
  [(0, 8), (8, 4), (12, 4), (16, 4), (20, 4), (24, 4), (28, 4), (32, 8), (40, 8), (48, 8), (56, 4), (60, 4), (64, 4),
   (68, 4), (72, 4), (76, 4), (80, 8)] ++
  [(88, 1), (89, 1), (90, 4), (94, 4), (98, 4), (102, 4), (106, 4), (110, 4), (114, 4), (118, 4), (122, 4), (126, 4),
   (130, 2), (132, 4), (136, 4), (140, 4)]

/-- What `HDR_CHECK` leaves (41_framescanner.md R106), for a header whose operands the resolver accepts. -/
def afterHdrCheck (s : State) : State :=
  if resolve s.groups (slice s.buf 2 s.hdrLen) = some 144 then
    { s with payLen := 144, state := .awaitingPayloadAndChecksum, out := { labels := [.hdrOk] } }
  else
    { s with
      hdrErrCount := satInc s.hdrErrCount, buf := [], state := .awaitingSync, out := { labels := [.heLen] } }

/-- The received checksum of a complete frame (R108). -/
def frameRx (buf : List Byte) : Word16 := be16 (buf.getD (buf.length - 2) 0) (buf.getD (buf.length - 1) 0)

/-- The computed checksum of a complete frame: all but the first byte and the last two (R108). -/
def frameCalc (buf : List Byte) : Word16 := crc16 ((buf.drop 1).take (buf.length - 3))

/-- The payload of a complete frame (R108). -/
def framePayload (s : State) : List Byte := (s.buf.drop s.hdrLen).take 144

/-- What `FRAME_CHECK` leaves (R108). -/
def afterFrameCheck (s : State) : State :=
  if frameCalc s.buf = frameRx s.buf then
    { s with
      okCount := satInc s.okCount, record := (unpack (framePayload s)).toOption, recValid := true, buf := [],
      state := .awaitingSync, out := { labels := [.ok], events := [.frameComplete (framePayload s)] } }
  else
    { s with
      crcErrCount := satInc s.crcErrCount, buf := [], state := .awaitingSync, out := { labels := [.ce] } }

/-- The outcome label of `FEED(b)`, from the decode table of 30_encoding.md R86. -/
def expectedLabel (s : State) (b : Byte) : Label :=
  match s.state with
  | .awaitingSync => if b = 0xFA#8 then .sync else .heSync
  | .awaitingGroupSelector => if 2 < 2 + 2 * (groupsOf b).length then .gsel else .heLen
  | .awaitingFieldSelectors =>
    if s.buf.length + 1 < s.hdrLen then .fsel
    else if resolve s.groups (slice (s.buf ++ [b]) 2 s.hdrLen) = some 144 then .hdrOk
    else .heLen
  | .awaitingPayloadAndChecksum =>
    if s.buf.length + 1 < s.hdrLen + 146 then .pay
    else if frameCalc (s.buf ++ [b]) = frameRx (s.buf ++ [b]) then .ok
    else .ce

/-- A state without the working values nothing will read again: all four until the group selector arrives, `payLen`
until the header is complete (10_state.md R24, 93_implementation_defined.md U7). -/
def eraseStale (s : State) : State :=
  match s.state with
  | .awaitingSync => { s with gsel := 0, groups := [], hdrLen := 0, payLen := 0 }
  | .awaitingGroupSelector => { s with gsel := 0, groups := [], hdrLen := 0, payLen := 0 }
  | .awaitingFieldSelectors => { s with payLen := 0 }
  | .awaitingPayloadAndChecksum => s

/-- The outputs of a function unit's evaluation. -/
def valueOut (v : UnitValue) : StepOut := { labels := [], events := [], value := some v }

end Sys2Proof.Spec

open Sys2Proof Sys2Proof.Machine

/-! ## Reset, invariant, step -/

/-- 10_state.md R38, 70_reset_and_hazards.md R200, decision D2: what construction leaves, for the elements the spec
gives a value; the record may not be read. -/
def Obligations.ResetLeavesTheConstructedScanner : Prop :=
  State.reset.state = .awaitingSync ∧ State.reset.buf = [] ∧ State.reset.okCount = 0 ∧ State.reset.hdrErrCount = 0 ∧
    State.reset.crcErrCount = 0 ∧ State.reset.recValid = false ∧ State.reset.readRecord = none ∧
    State.reset.out.events = []

/-- The invariants of 10_state.md R24 hold right after reset. -/
def Obligations.ResetSatisfiesTheInvariant : Prop := State.reset.Inv

/-- Every step, whatever event it takes, keeps the invariants of 10_state.md R24 ("every transition preserves
them"). -/
def Obligations.StepKeepsTheInvariant : Prop := ∀ s t : State, s.Inv → step s = .next t → t.Inv

/-- 10_state.md R25: the buffer holds at most 162 bytes, even with the byte the next step appends. -/
def Obligations.BufferNeverOverflows : Prop := ∀ s : State, s.Inv → s.buf.length + 1 ≤ 162

/-- A step runs the instruction the oldest event decodes to, on the rest; with no event it is `IDLE` (the model's form
of the input, assumption log 1, 2). An event that names no operation is refused: that refusal and its name are the
model's design choice (assumption log 4), not a rule of the spec. -/
def Obligations.StepRunsTheDecodedInstruction : Prop :=
  (∀ (s : State) (ev : Event) (rest : List Event) (i : Instr), s.input = ev :: rest → decode s.state ev = .ok i →
    step s = exec i { s with input := rest }) ∧
  (∀ s : State, s.input = [] → step s = exec .idle s) ∧
  (∀ (s : State) (ev : Event) (rest : List Event) (e : DecodeError), s.input = ev :: rest →
    decode s.state ev = .error e → step s = .refused (.noSuchOperation e))

/-- 30_encoding.md R70, R86: bytes written out bit by bit decode, in their parser state, to their rows. -/
def Obligations.WrittenBytesDecode : Prop :=
  decode .awaitingSync (.byte 0b11111010#8) = .ok .feedSyncHit ∧
  decode .awaitingSync (.byte 0b11111011#8) = .ok (.feedSyncMiss 0xFB#8) ∧
  decode .awaitingGroupSelector (.byte 0b00111001#8) = .ok (.feedGsel 0x39#8) ∧
  decode .awaitingGroupSelector (.byte 0b11111010#8) = .ok (.feedGsel 0xFA#8) ∧
  decode .awaitingFieldSelectors (.byte 0b11101001#8) = .ok (.feedFsel 0xE9#8) ∧
  decode .awaitingPayloadAndChecksum (.byte 0b10000111#8) = .ok (.feedPay 0x87#8)

/-- Decoding the event an instruction encodes to, in the parser state that selects it, gives the instruction back,
for every well-formed instruction that has an event. -/
def Obligations.DecodeOfEncodeGivesTheInstruction : Prop :=
  ∀ (i : Instr) (ev : Event) (st : ParserState), i.wf = true → encode i = some ev →
    (∀ p, i.selectingState = some p → st = p) → decode st ev = .ok i

/-- Whatever an event decodes to encodes back to that event and is selected in that state; a byte always decodes, to
a well-formed `FEED` row; nothing decodes to the two checks, which are never a step of their own (R86, R106, R108). -/
def Obligations.EncodeOfDecodeGivesTheEvent : Prop :=
  (∀ (st : ParserState) (ev : Event) (i : Instr), decode st ev = .ok i →
    encode i = some ev ∧ (∀ p, i.selectingState = some p → st = p) ∧ i ≠ .hdrCheck ∧ i ≠ .frameCheck) ∧
  (∀ (st : ParserState) (b : Byte), ∃ i, decode st (.byte b) = .ok i ∧ i.wf = true ∧ i.selectingState = some st)

/-- 30_encoding.md R86 with 41_framescanner.md R100: every byte in every state meeting the invariant takes one
transition, and its label is the one the decode table gives. -/
def Obligations.EveryByteTakesItsTableRow : Prop :=
  ∀ (s : State) (b : Byte), s.Inv →
    ∃ t, exec (decodeByte s.state b) s = .next t ∧ t.out.labels = [Spec.expectedLabel s b] ∧ t.Inv

/-! ## The FEED rows and the two checks -/

/-- 41_framescanner.md R102. -/
def Obligations.SyncHitTakesTheSyncByte : Prop :=
  ∀ s : State, s.state = .awaitingSync →
    exec .feedSyncHit s =
      .next { s with buf := [0xFA#8], state := .awaitingGroupSelector, out := { labels := [.sync] } }

/-- 41_framescanner.md R103; the counter's saturation is decision D3 (assumption log 8). -/
def Obligations.SyncMissCountsAHeaderError : Prop :=
  ∀ (s : State) (b : Byte), s.state = .awaitingSync → b ≠ 0xFA#8 →
    exec (.feedSyncMiss b) s =
      .next { s with
        hdrErrCount := satInc s.hdrErrCount, buf := [], state := .awaitingSync, out := { labels := [.heSync] } }

/-- 41_framescanner.md R104: with a group bit set the scanner waits for `hdr_len` bytes; with none (decision D5,
assumption log 10) the header is complete at this byte and is a header error. -/
def Obligations.GselStoresTheSelectorOrRejectsIt : Prop :=
  (∀ (s : State) (b : Byte), s.Inv → s.state = .awaitingGroupSelector → b &&& 0x7F#8 ≠ 0#8 →
    exec (.feedGsel b) s =
      .next { s with
        buf := [0xFA#8, b], gsel := b, groups := groupsOf b, hdrLen := 2 + 2 * (groupsOf b).length,
        state := .awaitingFieldSelectors, out := { labels := [.gsel] } }) ∧
  (∀ (s : State) (b : Byte), s.Inv → s.state = .awaitingGroupSelector → b &&& 0x7F#8 = 0#8 →
    exec (.feedGsel b) s =
      .next { s with
        buf := [], gsel := b, groups := [], hdrLen := 2, hdrErrCount := satInc s.hdrErrCount,
        state := .awaitingSync, out := { labels := [.heLen] } })

/-- 41_framescanner.md R105, with what R106 does when the header completes. -/
def Obligations.FselAppendsAndChecksTheHeader : Prop :=
  ∀ (s : State) (b : Byte), s.Inv → s.state = .awaitingFieldSelectors →
    exec (.feedFsel b) s =
      .next (if s.buf.length + 1 = s.hdrLen then Spec.afterHdrCheck { s with buf := s.buf ++ [b] }
        else { s with buf := s.buf ++ [b], out := { labels := [.fsel] } })

/-- 41_framescanner.md R106: the resolved length `n`, and only it, decides. -/
def Obligations.HdrCheckJudgesTheResolvedLength : Prop :=
  ∀ (s : State) (n : Nat), s.buf.length = s.hdrLen → resolve s.groups (slice s.buf 2 s.hdrLen) = some n →
    exec .hdrCheck s =
      .next (if n = 144 then
          { s with payLen := n, state := .awaitingPayloadAndChecksum, out := { labels := [.hdrOk] } }
        else
          { s with
            hdrErrCount := satInc s.hdrErrCount, buf := [], state := .awaitingSync, out := { labels := [.heLen] } })

/-- 41_framescanner.md R107, with what R108 does when the frame completes. -/
def Obligations.PayAppendsAndChecksTheFrame : Prop :=
  ∀ (s : State) (b : Byte), s.Inv → s.state = .awaitingPayloadAndChecksum →
    exec (.feedPay b) s =
      .next (if s.buf.length + 1 = s.hdrLen + s.payLen + 2 then Spec.afterFrameCheck { s with buf := s.buf ++ [b] }
        else { s with buf := s.buf ++ [b], out := { labels := [.pay] } })

/-- 41_framescanner.md R108. -/
def Obligations.FrameCheckJudgesTheChecksum : Prop :=
  ∀ s : State, s.payLen = 144 → s.buf.length = s.hdrLen + s.payLen + 2 →
    exec .frameCheck s = .next (Spec.afterFrameCheck s)

/-- A `FEED` row or a check executed where its own `require` line is false is refused (R102 to R108; the refusal is
the model's, assumption log 16). -/
def Obligations.RowsAreRefusedWhereNotSelected : Prop :=
  (∀ s : State, s.state ≠ .awaitingSync → exec .feedSyncHit s = .refused .requireFails) ∧
  (∀ (s : State) (b : Byte), s.state ≠ .awaitingSync ∨ b = 0xFA#8 →
    exec (.feedSyncMiss b) s = .refused .requireFails) ∧
  (∀ (s : State) (b : Byte), s.state ≠ .awaitingGroupSelector → exec (.feedGsel b) s = .refused .requireFails) ∧
  (∀ (s : State) (b : Byte), s.state ≠ .awaitingFieldSelectors → exec (.feedFsel b) s = .refused .requireFails) ∧
  (∀ (s : State) (b : Byte), s.state ≠ .awaitingPayloadAndChecksum →
    exec (.feedPay b) s = .refused .requireFails) ∧
  (∀ s : State, s.buf.length ≠ s.hdrLen → exec .hdrCheck s = .refused .requireFails) ∧
  (∀ s : State, s.buf.length ≠ s.hdrLen + s.payLen + 2 → exec .frameCheck s = .refused .requireFails)

/-- The memory frame of the three appending rows (10_state.md R22, R23): while the frame attempt goes on, only the
byte at offset `len(buf)` is written; when it ends no byte is left. The counters, the record and the waiting events
are untouched while it goes on. -/
def Obligations.AppendStoresOneByte : Prop :=
  ∀ (s t : State) (i : Instr) (b : Byte), i = .feedGsel b ∨ i = .feedFsel b ∨ i = .feedPay b → exec i s = .next t →
    t.input = s.input ∧
    (t.state ≠ .awaitingSync →
      t.readByte s.appendAddr = some b ∧ (∀ a, a ≠ s.appendAddr → t.readByte a = s.readByte a) ∧
      t.okCount = s.okCount ∧ t.hdrErrCount = s.hdrErrCount ∧ t.crcErrCount = s.crcErrCount ∧
      t.record = s.record ∧ t.recValid = s.recValid) ∧
    (t.state = .awaitingSync → ∀ a, t.readByte a = none)

/-! ## FEEDN, IDLE, RESET -/

/-- 41_framescanner.md R110, decision D12: `FEEDN` is the in-order fold of `FEED`, and its outputs are those of the
single steps in order. -/
def Obligations.FeedNIsTheFoldOfFeed : Prop :=
  (∀ s : State, exec (.feedN []) s = .next { s with out := { labels := [], events := [], value := none } }) ∧
  (∀ (s t u : State) (b : Byte) (rest : List Byte), exec (decodeByte s.state b) s = .next t →
    exec (.feedN rest) t = .next u →
    exec (.feedN (b :: rest)) s =
      .next { u with
        out := { labels := t.out.labels ++ u.out.labels, events := t.out.events ++ u.out.events, value := none } })

/-- 41_framescanner.md R100: every byte sequence is accepted in every state meeting the invariant, one label a byte,
and the waiting events stay. -/
def Obligations.EveryByteSequenceIsAccepted : Prop :=
  ∀ (s : State) (bs : List Byte), s.Inv →
    ∃ t, exec (.feedN bs) s = .next t ∧ t.Inv ∧ t.out.labels.length = bs.length ∧ t.input = s.input

/-- 41_framescanner.md R111, decision D1: `IDLE` changes no state and its event output is `None`. -/
def Obligations.IdleChangesNothing : Prop :=
  ∀ s : State, exec .idle s = .next { s with out := { labels := [.idle], events := [], value := none } }

/-- 41_framescanner.md R112, 70_reset_and_hazards.md R201, decision D2: construction in any state. Nothing is said of
the working values, which the spec leaves unspecified; the waiting events are the environment's and stay (assumption
log 7). -/
def Obligations.ResetEventReconstructsTheScanner : Prop :=
  ∀ s : State, ∃ t, exec .reset s = .next t ∧ t.state = .awaitingSync ∧ t.buf = [] ∧ t.okCount = 0 ∧
    t.hdrErrCount = 0 ∧ t.crcErrCount = 0 ∧ t.recValid = false ∧ t.readRecord = none ∧ t.out.events = [] ∧
    t.out.labels = [.reset] ∧ t.input = s.input

/-! ## The resolver -/

/-- 42_length_resolver.md R132, decision D7: the strictly ascending list of the set bits among bits 0 to 6. -/
def Obligations.GroupsListsTheSetBits : Prop :=
  ∀ (s : State) (sel : Byte), ∃ gs : List Nat,
    exec (.groups sel) s = .next { s with out := Spec.valueOut (.groups gs) } ∧ gs.Pairwise (· < ·) ∧
    ∀ i, i ∈ gs ↔ i < 7 ∧ sel.toNat.testBit i = true

/-- 42_length_resolver.md R133, with its corner cases and its example. -/
def Obligations.HdrlenCountsTheGroups : Prop :=
  ∀ (s : State) (sel : Byte),
    exec (.hdrlen sel) s = .next { s with out := Spec.valueOut (.length (2 + 2 * (groupsOf sel).length)) } ∧
    2 ≤ 2 + 2 * (groupsOf sel).length ∧ 2 + 2 * (groupsOf sel).length ≤ 16 ∧
    hdrLenOf 0x00#8 = 2 ∧ hdrLenOf 0xFF#8 = 16 ∧ hdrLenOf 0x39#8 = 10

/-- 42_length_resolver.md R134: the sum over the groups and the bits of each mask, for every operand inside the
contract (R135, 93_implementation_defined.md U11: indices below 7, strictly ascending, two bytes for each); what lies
outside it is `OperandsOutsideTheDomainAreRefused`. -/
def Obligations.ResolveSumsTheWidths : Prop :=
  ∀ (s : State) (gs : List Nat) (fb : List Byte), (∀ g ∈ gs, g < 7) → gs.Pairwise (· < ·) →
    fb.length = 2 * gs.length →
    exec (.resolve gs fb) s = .next { s with out := Spec.valueOut (.length (Spec.widthSum gs fb)) }

/-- 42_length_resolver.md R137: the reference masks give 80, 26, 24 and 14, together 144. -/
def Obligations.ReferenceSelectorsResolveTo144 : Prop :=
  resolve [0] [0x01, 0xE9] = some 80 ∧ resolve [3] [0x06, 0x1A] = some 26 ∧ resolve [4] [0x01, 0x40] = some 24 ∧
    resolve [5] [0x00, 0x09] = some 14 ∧
    resolve [0, 3, 4, 5] [0x01, 0xE9, 0x06, 0x1A, 0x01, 0x40, 0x00, 0x09] = some 144

/-- 42_length_resolver.md R136: no result exceeds 1000, and 1000 is reached. -/
def Obligations.ResolveIsAtMost1000 : Prop :=
  (∀ (gs : List Nat) (fb : List Byte) (n : Nat), resolve gs fb = some n → n ≤ 1000) ∧
  resolve [0, 1, 2, 3, 4, 5, 6] (List.replicate 14 0xFF#8) = some 1000

/-- 42_length_resolver.md R135 (decision D15, 93_implementation_defined.md U11: an index above 6, an unsorted or
repeated list, a wrong byte count) and 45_frame_builder.md R170: operands outside the domain get no value. The name of
RESOLVE's refusal (assumption log 14), the refusal of BUILD (assumption log 15) and the last two clauses, about states
no run reaches (assumption log 20), are the model's. -/
def Obligations.OperandsOutsideTheDomainAreRefused : Prop :=
  (∀ (s : State) (gs : List Nat) (fb : List Byte),
    (∃ g ∈ gs, 7 ≤ g) ∨ ¬ gs.Pairwise (· < ·) ∨ fb.length ≠ 2 * gs.length →
    exec (.resolve gs fb) s = .refused .outsideDomain) ∧
  (∀ (s : State) (sel : Byte) (words : List Word16) (payload : List Byte), words.length ≠ (groupsOf sel).length →
    exec (.build sel words payload) s = .refused .outsideDomain) ∧
  (∀ s : State, s.buf.length = s.hdrLen → resolve s.groups (slice s.buf 2 s.hdrLen) = none →
    exec .hdrCheck s = .refused .outsideDomain) ∧
  (∀ s : State, s.buf.length = s.hdrLen + s.payLen + 2 → s.payLen ≠ 144 →
    Spec.frameCalc s.buf = Spec.frameRx s.buf → exec .frameCheck s = .refused .outsideDomain)

/-! ## The checksum -/

/-- 43_checksum.md R141, decision D8 (assumption log 12): the five updates on natural numbers. -/
def Obligations.CrcStepIsFiveSequentialUpdates : Prop :=
  ∀ (s : State) (acc : Word16) (b : Byte), ∃ w : Word16,
    exec (.crcStep acc b) s = .next { s with out := Spec.valueOut (.word w) } ∧
    w.toNat = Spec.crcStepNat acc.toNat b.toNat

/-- 43_checksum.md R142, with its corner cases (leading zero bytes) and its example. -/
def Obligations.Crc16IsTheLeftFold : Prop :=
  (∀ (s : State) (bytes : List Byte),
    exec (.crc16 bytes) s = .next { s with out := Spec.valueOut (.word (crc16 bytes)) }) ∧
  crc16 [] = 0x0000#16 ∧ (∀ (bytes : List Byte) (b : Byte), crc16 (bytes ++ [b]) = crcStep (crc16 bytes) b) ∧
  (∀ (n : Nat) (bytes : List Byte), crc16 (List.replicate n 0x00#8 ++ bytes) = crc16 bytes) ∧
  crc16 [0x01] = 0x1021#16 ∧ crc16 [0xFF] = 0x1EF0#16 ∧ crc16 [0xFF, 0xFF] = 0x1D0F#16 ∧
  crc16 [0x31, 0x32, 0x33, 0x34, 0x35, 0x36, 0x37, 0x38, 0x39] = 0x31C3#16

/-- 43_checksum.md R143, with its equivalent form. -/
def Obligations.CrcVerifyComparesAllBits : Prop :=
  ∀ (s : State) (bytes : List Byte) (rx : Word16), ∃ v : Bool,
    exec (.crcVerify bytes rx) s = .next { s with out := Spec.valueOut (.verdict v) } ∧
    (v = true ↔ crc16 bytes = rx) ∧ (v = true ↔ crc16 (bytes ++ [hi rx, lo rx]) = 0#16)

/-- 43_checksum.md R146: the step equals the bit-serial step of the polynomial `0x1021`, for every accumulator and
byte. -/
def Obligations.CrcStepEqualsTheBitSerialForm : Prop :=
  ∀ (acc : Word16) (b : Byte), crcStep acc b = Spec.bitSerial acc b

/-- 43_checksum.md R147: the residue law, both directions. -/
def Obligations.CrcResidueIsZero : Prop :=
  (∀ bytes : List Byte, crc16 (bytes ++ [hi (crc16 bytes), lo (crc16 bytes)]) = 0#16) ∧
  (∀ (bytes : List Byte) (h l : Byte), crc16 (bytes ++ [h, l]) = 0#16 → be16 h l = crc16 bytes)

/-- 43_checksum.md R145: linearity of the step and of the checksum of equal-length sequences. -/
def Obligations.CrcIsLinear : Prop :=
  (∀ (x y : Word16) (b c : Byte), crcStep (x ^^^ y) (b ^^^ c) = crcStep x b ^^^ crcStep y c) ∧
  (∀ p q : List Byte, p.length = q.length → crc16 (List.zipWith (· ^^^ ·) p q) = crc16 p ^^^ crc16 q)

/-- 43_checksum.md R148: changing any single byte changes the checksum. -/
def Obligations.SingleByteChangeChangesTheChecksum : Prop :=
  ∀ (pre post : List Byte) (b c : Byte), b ≠ c → crc16 (pre ++ b :: post) ≠ crc16 (pre ++ c :: post)

/-! ## The codec and the builder -/

/-- 44_telemetry_codec.md R154, R157: on 144 bytes every element of the table has the little-endian value of its
bytes; any other length is the explicit error, with no counter and no state changed. The layout is the table of R153,
whose split of the nine unnamed fields is the spec's own decision D9, and the byte order is decision D14 (assumption
log 13). -/
def Obligations.UnpackReadsEveryElement : Prop :=
  (∀ (s : State) (p : List Byte), p.length = 144 → ∃ r : TelemetryRecord,
    exec (.unpack p) s = .next { s with out := Spec.valueOut (.record r) } ∧
    (elementTable r).map (fun e => (e.1, e.2.1)) = Spec.elementLayout ∧
    ∀ e ∈ elementTable r, e.2.2 = leNat (slice p e.1 (e.1 + e.2.1))) ∧
  (∀ (s : State) (p : List Byte), p.length ≠ 144 →
    exec (.unpack p) s = .next { s with out := Spec.valueOut (.error (.lengthMismatch p.length)) })

/-- 44_telemetry_codec.md R155: 144 bytes, each element's bytes little-endian at its offset, over the elements of R153 (the
spec's own decisions D9 and D14, assumption log 13). -/
def Obligations.PackWritesEveryElement : Prop :=
  ∀ (s : State) (r : TelemetryRecord), ∃ p : List Byte,
    exec (.pack r) s = .next { s with out := Spec.valueOut (.bytes p) } ∧ p.length = 144 ∧
    ∀ e ∈ elementTable r, slice p e.1 (e.1 + e.2.1) = bytesLe e.2.1 e.2.2

/-- 44_telemetry_codec.md R156: `UNPACK` and `PACK` are inverse bijections. -/
def Obligations.CodecIsABijection : Prop :=
  (∀ r : TelemetryRecord, unpack (pack r) = .ok r) ∧
  (∀ p : List Byte, p.length = 144 → ∃ r, unpack p = .ok r ∧ pack r = p)

/-- 45_frame_builder.md R170, decision D13: the frame, byte for byte. -/
def Obligations.BuildAssemblesTheFrame : Prop :=
  ∀ (s : State) (sel : Byte) (words : List Word16) (payload : List Byte), words.length = (groupsOf sel).length →
    ∃ body : List Byte,
      body = [sel] ++ words.flatMap (fun w => [hi w, lo w]) ++ payload ∧
      exec (.build sel words payload) s =
        .next { s with out := Spec.valueOut (.bytes ([0xFA#8] ++ body ++ [hi (crc16 body), lo (crc16 body)])) }

/-- 45_frame_builder.md R171, decision D13: 156 bytes, the fixed ten header bytes, the packed record, the checksum of
the 153 covered bytes; the running checksum after the covered header bytes is `0x7707`. -/
def Obligations.BuildRefAssemblesTheReferenceFrame : Prop :=
  ∀ (s : State) (r : TelemetryRecord), ∃ f : List Byte,
    exec (.buildRef r) s = .next { s with out := Spec.valueOut (.bytes f) } ∧ f.length = 156 ∧
    f.take 10 = [0xFA, 0x39, 0x01, 0xE9, 0x06, 0x1A, 0x01, 0x40, 0x00, 0x09] ∧ slice f 10 154 = pack r ∧
    crc16 (slice f 1 10) = 0x7707#16 ∧ Spec.frameRx f = crc16 (slice f 1 154)

/-- 30_encoding.md R87, R88: a function unit asked for with operands in its domain returns a value, and the
evaluation touches nothing of the scanner and emits nothing (assumption log 4). -/
def Obligations.UnitsReturnAValueAndNothingElse : Prop :=
  ∀ (i : Instr) (s : State), decode s.state (.unit i) = .ok i → i.wf = true →
    ∃ v, exec i s = .next { s with out := Spec.valueOut v }

/-! ## Errors, counters, events, record -/

/-- 60_exceptions.md R183: every `FEED` step labelled as a header error has its whole effect and no other on the
outputs, the counters and the record. -/
def Obligations.HeaderErrorEffect : Prop :=
  ∀ (s t : State) (b : Byte), exec (decodeByte s.state b) s = .next t →
    .heSync ∈ t.out.labels ∨ .heLen ∈ t.out.labels →
    t.hdrErrCount = satInc s.hdrErrCount ∧ t.buf = [] ∧ t.state = .awaitingSync ∧ t.out.events = [] ∧
      t.okCount = s.okCount ∧ t.crcErrCount = s.crcErrCount ∧ t.record = s.record ∧ t.recValid = s.recValid

/-- 60_exceptions.md R184. -/
def Obligations.ChecksumErrorEffect : Prop :=
  ∀ (s t : State) (b : Byte), exec (decodeByte s.state b) s = .next t → .ce ∈ t.out.labels →
    t.crcErrCount = satInc s.crcErrCount ∧ t.buf = [] ∧ t.state = .awaitingSync ∧ t.out.events = [] ∧
      t.record = s.record ∧ t.recValid = s.recValid ∧ t.okCount = s.okCount ∧ t.hdrErrCount = s.hdrErrCount

/-- 10_state.md R30: which outcome writes which counter, by one (saturating, decision D3), and that `IDLE` writes
none. -/
def Obligations.CountersFollowTheLabel : Prop :=
  (∀ (s t : State) (b : Byte), exec (decodeByte s.state b) s = .next t → ∃ l, t.out.labels = [l] ∧
    (l = .heSync ↔ s.state = .awaitingSync ∧ b ≠ 0xFA#8) ∧
    t.hdrErrCount = (if l = .heSync ∨ l = .heLen then satInc s.hdrErrCount else s.hdrErrCount) ∧
    t.crcErrCount = (if l = .ce then satInc s.crcErrCount else s.crcErrCount) ∧
    t.okCount = (if l = .ok then satInc s.okCount else s.okCount)) ∧
  (∀ s t : State, exec .idle s = .next t →
    t.hdrErrCount = s.hdrErrCount ∧ t.crcErrCount = s.crcErrCount ∧ t.okCount = s.okCount)

/-- 60_exceptions.md R189: at most one of header error, checksum error and event in a step. -/
def Obligations.AtMostOneErrorOrEvent : Prop :=
  ∀ (s t : State) (b : Byte), exec (decodeByte s.state b) s = .next t → ∃ l, t.out.labels = [l] ∧
    (t.out.events ≠ [] ↔ l = .ok) ∧ (l.errorClass ≠ none → t.out.events = []) ∧ t.out.events.length ≤ 1 ∧
    (l.errorClass ≠ none ∨ l = .ok → t.state = .awaitingSync ∧ t.buf = [])

/-- 10_state.md R33: the event of a step is the 144 payload bytes of the frame just verified, and there is none
otherwise. -/
def Obligations.EventIsTheVerifiedPayload : Prop :=
  ∀ (s t : State) (b : Byte), s.Inv → exec (decodeByte s.state b) s = .next t →
    t.out.events =
      (if t.out.labels = [.ok] then [.frameComplete (slice (s.buf ++ [b]) s.hdrLen (s.hdrLen + 144))] else []) ∧
    ∀ p, .frameComplete p ∈ t.out.events → p.length = 144

/-- 10_state.md R29: no operation but `RESET` decrements or clears a counter. -/
def Obligations.CountersNeverDecrease : Prop :=
  ∀ (i : Instr) (s t : State), i ≠ .reset → exec i s = .next t →
    s.okCount.toNat ≤ t.okCount.toNat ∧ s.hdrErrCount.toNat ≤ t.hdrErrCount.toNat ∧
      s.crcErrCount.toNat ≤ t.crcErrCount.toNat

/-- 41_framescanner.md R118, with the saturation of 10_state.md R31 (decision D3) made exact: after any bytes each
counter has grown by the number of its labels, up to its maximum, and every `OK` emitted one event. -/
def Obligations.CountingLaw : Prop :=
  ∀ (s t : State) (bs : List Byte), exec (.feedN bs) s = .next t →
    t.hdrErrCount.toNat =
      min (s.hdrErrCount.toNat + t.out.labels.count .heSync + t.out.labels.count .heLen) (2 ^ 32 - 1) ∧
    t.crcErrCount.toNat = min (s.crcErrCount.toNat + t.out.labels.count .ce) (2 ^ 32 - 1) ∧
    t.okCount.toNat = min (s.okCount.toNat + t.out.labels.count .ok) (2 ^ 32 - 1) ∧
    t.out.events.length = t.out.labels.count .ok ∧ t.out.labels.length = bs.length

/-- 10_state.md R32, 70_reset_and_hazards.md R211: the record is the last delivered payload, unpacked, and changes by
nothing but a delivery or `RESET`. -/
def Obligations.RecordIsTheLastDeliveredPayload : Prop :=
  ∀ (i : Instr) (s t : State), i ≠ .reset → exec i s = .next t →
    (t.out.events = [] → t.record = s.record ∧ t.recValid = s.recValid) ∧
    (∀ p, t.out.events.getLast? = some (.frameComplete p) →
      ∃ r, unpack p = .ok r ∧ t.record = some r ∧ t.recValid = true)

/-- 10_state.md R31, decision D3 (assumption log 8), for every counter width: an increment saturates. -/
def Obligations.IncrementSaturates : Prop :=
  ∀ (w : Nat) (c : BitVec w), (satInc c).toNat = min (c.toNat + 1) (2 ^ w - 1)

/-! ## Laws of whole runs -/

/-- 41_framescanner.md R107, R113, 70_reset_and_hazards.md R208: once a header has passed, exactly 146 bytes from its
end are taken whatever they are, nothing writes the four working values meanwhile, and the last byte ends the frame. -/
def Obligations.PayloadAndChecksumAreTakenWhole : Prop :=
  ∀ (s : State) (bs : List Byte) (b : Byte), s.Inv → s.state = .awaitingPayloadAndChecksum →
    s.buf.length + bs.length + 1 = s.hdrLen + 146 →
    (∃ t, exec (.feedN bs) s = .next t ∧ t.out.labels = List.replicate bs.length .pay ∧ t.state = s.state ∧
      t.buf = s.buf ++ bs ∧ t.gsel = s.gsel ∧ t.groups = s.groups ∧ t.hdrLen = s.hdrLen ∧ t.payLen = s.payLen) ∧
    (∃ t l, exec (.feedN (bs ++ [b])) s = .next t ∧ t.out.labels = List.replicate bs.length .pay ++ [l] ∧
      (l = .ok ∨ l = .ce) ∧ t.state = .awaitingSync ∧ t.buf = [])

/-- 41_framescanner.md R115: cutting a byte sequence into slices, with any change of the outputs between (an `IDLE`
among them), gives the same end state and the same labels and events. -/
def Obligations.GranularityDoesNotMatter : Prop :=
  ∀ (s t t' u : State) (xs ys : List Byte), exec (.feedN xs) s = .next t → t.sameButOut t' →
    exec (.feedN ys) t' = .next u →
    exec (.feedN (xs ++ ys)) s =
      .next { u with
        out := { labels := t.out.labels ++ u.out.labels, events := t.out.events ++ u.out.events, value := none } }

/-- 41_framescanner.md R110, R115: one call with many bytes and one step per byte end in the same scanner state. -/
def Obligations.OneCallEqualsSeparateSteps : Prop :=
  ∀ (s u : State) (bs : List Byte) (rest : List Event), s.input = bs.map .byte ++ rest →
    exec (.feedN bs) { s with input := rest } = .next u →
    ∃ t : State, core.run bs.length s = .next t ∧ t.sameButOut u

/-- 41_framescanner.md R116: bytes other than the sync byte, fed while hunting, add one header error each and change
nothing else. -/
def Obligations.ResyncAfterJunk : Prop :=
  ∀ (s : State) (bs : List Byte), s.state = .awaitingSync → s.buf = [] → (∀ b ∈ bs, b ≠ 0xFA#8) →
    exec (.feedN bs) s =
      .next { s with
        hdrErrCount := satInc^[bs.length] s.hdrErrCount,
        out := { labels := List.replicate bs.length .heSync, events := [], value := none } }

/-- 41_framescanner.md R117: a built frame that resolves to 144 and carries 144 bytes is delivered. -/
def Obligations.ValidFrameIsDelivered : Prop :=
  ∀ (s : State) (sel : Byte) (words : List Word16) (payload frame : List Byte), s.state = .awaitingSync →
    exec (.build sel words payload) s = .next { s with out := Spec.valueOut (.bytes frame) } →
    resolve (groupsOf sel) (words.flatMap fun w => [hi w, lo w]) = some 144 → payload.length = 144 →
    ∃ t, exec (.feedN frame) s = .next t ∧ t.state = .awaitingSync ∧ t.buf = [] ∧
      t.okCount = satInc s.okCount ∧ t.hdrErrCount = s.hdrErrCount ∧ t.crcErrCount = s.crcErrCount ∧
      unpack payload = .ok (recordOf payload) ∧ t.record = some (recordOf payload) ∧ t.recValid = true ∧
      t.out.events = [.frameComplete payload] ∧ t.out.labels.getLast? = some .ok

/-- 45_frame_builder.md R172: a scanner hunting for sync accepts a built frame exactly when its selectors resolve to
144 and its payload has 144 bytes. -/
def Obligations.AcceptanceLaw : Prop :=
  ∀ (s : State) (sel : Byte) (words : List Word16) (payload frame : List Byte), s.state = .awaitingSync →
    exec (.build sel words payload) s = .next { s with out := Spec.valueOut (.bytes frame) } →
    ((∃ t, exec (.feedN frame) s = .next t ∧ t.out.events = [.frameComplete payload] ∧
        t.out.labels.getLast? = some .ok ∧ ∀ l ∈ t.out.labels, l.errorClass = none) ↔
      resolve (groupsOf sel) (words.flatMap fun w => [hi w, lo w]) = some 144 ∧ payload.length = 144)

/-- 45_frame_builder.md R173: every record sent through the builder comes back element for element. -/
def Obligations.LoopbackReturnsTheRecord : Prop :=
  ∀ (s : State) (r : TelemetryRecord) (frame : List Byte), s.state = .awaitingSync →
    exec (.buildRef r) s = .next { s with out := Spec.valueOut (.bytes frame) } →
    ∃ t, exec (.feedN frame) s = .next t ∧ t.state = .awaitingSync ∧ t.readRecord = some r ∧ t.recValid = true ∧
      t.out.events = [.frameComplete (pack r)] ∧ t.okCount = satInc s.okCount

/-- 93_implementation_defined.md U7: nothing a step shows or keeps depends on the working values the spec leaves
unspecified; so nothing rests on the values the model gives them at reset (assumption log 5). -/
def Obligations.StaleWorkingValuesAreInvisible : Prop :=
  ∀ s s' t : State, Spec.eraseStale s = Spec.eraseStale s' → step s = .next t →
    ∃ t', step s' = .next t' ∧ Spec.eraseStale t = Spec.eraseStale t'
end

