-- ==== Sys2Proof/Laws/Bytes.lean ====
section
/-! SUPPORT. What the operand forms do: big-endian words, little-endian elements, slices, the group list. -/

namespace Sys2Proof.Machine

@[simp] theorem hi_be16 (h l : Byte) : hi (be16 h l) = h := by
  apply BitVec.eq_of_getLsbD_eq
  intro i hi'
  have h8 : 8 + i < 16 := by omega
  simp [hi, be16, hi', h8]

@[simp] theorem lo_be16 (h l : Byte) : lo (be16 h l) = l := by
  apply BitVec.eq_of_getLsbD_eq
  intro i hi'
  simp [lo, be16, hi']

@[simp] theorem be16_hi_lo (w : Word16) : be16 (hi w) (lo w) = w := by
  apply BitVec.eq_of_getLsbD_eq
  intro i hi'
  by_cases h8 : i < 8
  · simp [hi, lo, be16, h8, hi']
  · have e : 8 + (i - 8) = i := by omega
    have h8' : i - 8 < 8 := by omega
    simp [hi, lo, be16, h8, h8', hi', e]

theorem be16_toNat (h l : Byte) : (be16 h l).toNat = h.toNat * 256 + l.toNat := by
  have hh := h.isLt
  have hl := l.isLt
  have e : (h.toNat * 256) ||| l.toNat = h.toNat * 256 + l.toNat := by
    have := Nat.two_pow_add_eq_or_of_lt (i := 8) (b := l.toNat) (by omega) h.toNat
    rw [Nat.mul_comm] at this
    exact this.symm
  have h16 : h.toNat % 65536 = h.toNat := by omega
  have l16 : l.toNat % 65536 = l.toNat := by omega
  simp [be16, Nat.shiftLeft_eq, h16, l16]
  rw [Nat.mod_eq_of_lt (by omega), e]

@[simp] theorem wordBytes_nil : wordBytes [] = [] := rfl

@[simp] theorem wordBytes_cons (w : Word16) (ws : List Word16) :
    wordBytes (w :: ws) = hi w :: lo w :: wordBytes ws := rfl

@[simp] theorem wordBytes_length (ws : List Word16) : (wordBytes ws).length = 2 * ws.length := by
  induction ws with
  | nil => rfl
  | cons w ws ih => simp [ih]; omega

theorem slice_length {s : List Byte} {a b : Nat} (h : b ≤ s.length) : (slice s a b).length = b - a := by
  simp [slice]; omega

@[simp] theorem bytesLe_length (n v : Nat) : (bytesLe n v).length = n := by
  induction n generalizing v with
  | zero => rfl
  | succ n ih => simp [bytesLe, ih]

theorem leNat_bytesLe (n v : Nat) : leNat (bytesLe n v) = v % 256 ^ n := by
  induction n generalizing v with
  | zero => simp [bytesLe, leNat, Nat.mod_one]
  | succ n ih =>
    simp [bytesLe, leNat, ih, Nat.pow_succ']
    rw [Nat.mod_mul]

theorem leNat_lt (s : List Byte) : leNat s < 256 ^ s.length := by
  induction s with
  | nil => simp [leNat]
  | cons b s ih =>
    have := b.isLt
    simp [leNat, Nat.pow_succ']
    omega

theorem bytesLe_leNat (s : List Byte) : bytesLe s.length (leNat s) = s := by
  induction s with
  | nil => rfl
  | cons b s ih =>
    have hb := b.isLt
    have hd : (b.toNat + 256 * leNat s) / 256 = leNat s := by omega
    have hm : BitVec.ofNat 8 (b.toNat + 256 * leNat s) = b := by
      apply BitVec.eq_of_toNat_eq
      simp
      omega
    simp [bytesLe, leNat, hd, hm, ih]

theorem mem_groupsOf {sel : Byte} {i : Nat} : i ∈ groupsOf sel ↔ i < 7 ∧ sel.getLsbD i = true := by
  simp [groupsOf, Config.groupBits]

theorem groupsOf_ascending (sel : Byte) : (groupsOf sel).Pairwise (· < ·) :=
  (List.pairwise_lt_range).filter _

theorem groupsOf_length_le (sel : Byte) : (groupsOf sel).length ≤ 7 := by
  simpa [groupsOf, Config.groupBits] using
    List.length_filter_le (fun i => sel.getLsbD i) (List.range Config.groupBits)

theorem resolveDomain_iff {gs : List Nat} {fb : List Byte} :
    resolveDomain gs fb = true ↔ (∀ g ∈ gs, g < 7) ∧ gs.Pairwise (· < ·) ∧ fb.length = 2 * gs.length := by
  have hall : gs.all (fun g => decide (g < Config.groupBits)) = true ↔ ∀ g ∈ gs, g < 7 := by
    rw [List.all_eq_true]
    exact forall₂_congr fun g _ => decide_eq_true_iff
  simp only [resolveDomain, Bool.and_eq_true, hall, decide_eq_true_eq, beq_iff_eq, and_assoc]

/-- No index is repeated inside the domain (R135). -/
theorem nodup_of_resolveDomain {gs : List Nat} {fb : List Byte} (h : resolveDomain gs fb = true) : gs.Nodup :=
  (resolveDomain_iff.mp h).2.1.imp Nat.ne_of_lt

/-- The scanner's call of the resolver is inside its domain (R135). -/
theorem resolveDomain_groupsOf {sel : Byte} {fb : List Byte} (h : fb.length = 2 * (groupsOf sel).length) :
    resolveDomain (groupsOf sel) fb = true :=
  resolveDomain_iff.mpr ⟨fun _ hg => (mem_groupsOf.mp hg).1, groupsOf_ascending sel, h⟩

end Sys2Proof.Machine
end

