-- ==== Sys2Proof/Laws/State.lean ====
section
/-! SUPPORT. One lemma per field per state update, true by rfl: no later proof unfolds a record update. -/

namespace Sys2Proof.Machine.State

variable (s : State)

@[simp] theorem appendByte_state (b : Byte) : (s.appendByte b).state = s.state := rfl
@[simp] theorem appendByte_buf (b : Byte) : (s.appendByte b).buf = s.buf ++ [b] := rfl
@[simp] theorem appendByte_gsel (b : Byte) : (s.appendByte b).gsel = s.gsel := rfl
@[simp] theorem appendByte_groups (b : Byte) : (s.appendByte b).groups = s.groups := rfl
@[simp] theorem appendByte_hdrLen (b : Byte) : (s.appendByte b).hdrLen = s.hdrLen := rfl
@[simp] theorem appendByte_payLen (b : Byte) : (s.appendByte b).payLen = s.payLen := rfl
@[simp] theorem appendByte_okCount (b : Byte) : (s.appendByte b).okCount = s.okCount := rfl
@[simp] theorem appendByte_hdrErrCount (b : Byte) : (s.appendByte b).hdrErrCount = s.hdrErrCount := rfl
@[simp] theorem appendByte_crcErrCount (b : Byte) : (s.appendByte b).crcErrCount = s.crcErrCount := rfl
@[simp] theorem appendByte_record (b : Byte) : (s.appendByte b).record = s.record := rfl
@[simp] theorem appendByte_recValid (b : Byte) : (s.appendByte b).recValid = s.recValid := rfl
@[simp] theorem appendByte_out (b : Byte) : (s.appendByte b).out = s.out := rfl
@[simp] theorem appendByte_input (b : Byte) : (s.appendByte b).input = s.input := rfl

@[simp] theorem clearBuf_state : (s.clearBuf).state = s.state := rfl
@[simp] theorem clearBuf_buf : (s.clearBuf).buf = [] := rfl
@[simp] theorem clearBuf_gsel : (s.clearBuf).gsel = s.gsel := rfl
@[simp] theorem clearBuf_groups : (s.clearBuf).groups = s.groups := rfl
@[simp] theorem clearBuf_hdrLen : (s.clearBuf).hdrLen = s.hdrLen := rfl
@[simp] theorem clearBuf_payLen : (s.clearBuf).payLen = s.payLen := rfl
@[simp] theorem clearBuf_okCount : (s.clearBuf).okCount = s.okCount := rfl
@[simp] theorem clearBuf_hdrErrCount : (s.clearBuf).hdrErrCount = s.hdrErrCount := rfl
@[simp] theorem clearBuf_crcErrCount : (s.clearBuf).crcErrCount = s.crcErrCount := rfl
@[simp] theorem clearBuf_record : (s.clearBuf).record = s.record := rfl
@[simp] theorem clearBuf_recValid : (s.clearBuf).recValid = s.recValid := rfl
@[simp] theorem clearBuf_out : (s.clearBuf).out = s.out := rfl
@[simp] theorem clearBuf_input : (s.clearBuf).input = s.input := rfl

@[simp] theorem enter_state (p : ParserState) : (s.enter p).state = p := rfl
@[simp] theorem enter_buf (p : ParserState) : (s.enter p).buf = s.buf := rfl
@[simp] theorem enter_gsel (p : ParserState) : (s.enter p).gsel = s.gsel := rfl
@[simp] theorem enter_groups (p : ParserState) : (s.enter p).groups = s.groups := rfl
@[simp] theorem enter_hdrLen (p : ParserState) : (s.enter p).hdrLen = s.hdrLen := rfl
@[simp] theorem enter_payLen (p : ParserState) : (s.enter p).payLen = s.payLen := rfl
@[simp] theorem enter_okCount (p : ParserState) : (s.enter p).okCount = s.okCount := rfl
@[simp] theorem enter_hdrErrCount (p : ParserState) : (s.enter p).hdrErrCount = s.hdrErrCount := rfl
@[simp] theorem enter_crcErrCount (p : ParserState) : (s.enter p).crcErrCount = s.crcErrCount := rfl
@[simp] theorem enter_record (p : ParserState) : (s.enter p).record = s.record := rfl
@[simp] theorem enter_recValid (p : ParserState) : (s.enter p).recValid = s.recValid := rfl
@[simp] theorem enter_out (p : ParserState) : (s.enter p).out = s.out := rfl
@[simp] theorem enter_input (p : ParserState) : (s.enter p).input = s.input := rfl

@[simp] theorem takeSelector_state (b : Byte) : (s.takeSelector b).state = s.state := rfl
@[simp] theorem takeSelector_buf (b : Byte) : (s.takeSelector b).buf = s.buf := rfl
@[simp] theorem takeSelector_gsel (b : Byte) : (s.takeSelector b).gsel = b := rfl
@[simp] theorem takeSelector_groups (b : Byte) : (s.takeSelector b).groups = groupsOf b := rfl
@[simp] theorem takeSelector_hdrLen (b : Byte) : (s.takeSelector b).hdrLen = 2 + 2 * (groupsOf b).length := rfl
@[simp] theorem takeSelector_payLen (b : Byte) : (s.takeSelector b).payLen = s.payLen := rfl
@[simp] theorem takeSelector_okCount (b : Byte) : (s.takeSelector b).okCount = s.okCount := rfl
@[simp] theorem takeSelector_hdrErrCount (b : Byte) : (s.takeSelector b).hdrErrCount = s.hdrErrCount := rfl
@[simp] theorem takeSelector_crcErrCount (b : Byte) : (s.takeSelector b).crcErrCount = s.crcErrCount := rfl
@[simp] theorem takeSelector_record (b : Byte) : (s.takeSelector b).record = s.record := rfl
@[simp] theorem takeSelector_recValid (b : Byte) : (s.takeSelector b).recValid = s.recValid := rfl
@[simp] theorem takeSelector_out (b : Byte) : (s.takeSelector b).out = s.out := rfl
@[simp] theorem takeSelector_input (b : Byte) : (s.takeSelector b).input = s.input := rfl

@[simp] theorem takePayLen_state (n : Nat) : (s.takePayLen n).state = s.state := rfl
@[simp] theorem takePayLen_buf (n : Nat) : (s.takePayLen n).buf = s.buf := rfl
@[simp] theorem takePayLen_gsel (n : Nat) : (s.takePayLen n).gsel = s.gsel := rfl
@[simp] theorem takePayLen_groups (n : Nat) : (s.takePayLen n).groups = s.groups := rfl
@[simp] theorem takePayLen_hdrLen (n : Nat) : (s.takePayLen n).hdrLen = s.hdrLen := rfl
@[simp] theorem takePayLen_payLen (n : Nat) : (s.takePayLen n).payLen = n := rfl
@[simp] theorem takePayLen_okCount (n : Nat) : (s.takePayLen n).okCount = s.okCount := rfl
@[simp] theorem takePayLen_hdrErrCount (n : Nat) : (s.takePayLen n).hdrErrCount = s.hdrErrCount := rfl
@[simp] theorem takePayLen_crcErrCount (n : Nat) : (s.takePayLen n).crcErrCount = s.crcErrCount := rfl
@[simp] theorem takePayLen_record (n : Nat) : (s.takePayLen n).record = s.record := rfl
@[simp] theorem takePayLen_recValid (n : Nat) : (s.takePayLen n).recValid = s.recValid := rfl
@[simp] theorem takePayLen_out (n : Nat) : (s.takePayLen n).out = s.out := rfl
@[simp] theorem takePayLen_input (n : Nat) : (s.takePayLen n).input = s.input := rfl

@[simp] theorem endFrame_state : (s.endFrame).state = .awaitingSync := rfl
@[simp] theorem endFrame_buf : (s.endFrame).buf = [] := rfl
@[simp] theorem endFrame_gsel : (s.endFrame).gsel = s.gsel := rfl
@[simp] theorem endFrame_groups : (s.endFrame).groups = s.groups := rfl
@[simp] theorem endFrame_hdrLen : (s.endFrame).hdrLen = s.hdrLen := rfl
@[simp] theorem endFrame_payLen : (s.endFrame).payLen = s.payLen := rfl
@[simp] theorem endFrame_okCount : (s.endFrame).okCount = s.okCount := rfl
@[simp] theorem endFrame_hdrErrCount : (s.endFrame).hdrErrCount = s.hdrErrCount := rfl
@[simp] theorem endFrame_crcErrCount : (s.endFrame).crcErrCount = s.crcErrCount := rfl
@[simp] theorem endFrame_record : (s.endFrame).record = s.record := rfl
@[simp] theorem endFrame_recValid : (s.endFrame).recValid = s.recValid := rfl
@[simp] theorem endFrame_out : (s.endFrame).out = s.out := rfl
@[simp] theorem endFrame_input : (s.endFrame).input = s.input := rfl

@[simp] theorem emit_state (o : StepOut) : (s.emit o).state = s.state := rfl
@[simp] theorem emit_buf (o : StepOut) : (s.emit o).buf = s.buf := rfl
@[simp] theorem emit_gsel (o : StepOut) : (s.emit o).gsel = s.gsel := rfl
@[simp] theorem emit_groups (o : StepOut) : (s.emit o).groups = s.groups := rfl
@[simp] theorem emit_hdrLen (o : StepOut) : (s.emit o).hdrLen = s.hdrLen := rfl
@[simp] theorem emit_payLen (o : StepOut) : (s.emit o).payLen = s.payLen := rfl
@[simp] theorem emit_okCount (o : StepOut) : (s.emit o).okCount = s.okCount := rfl
@[simp] theorem emit_hdrErrCount (o : StepOut) : (s.emit o).hdrErrCount = s.hdrErrCount := rfl
@[simp] theorem emit_crcErrCount (o : StepOut) : (s.emit o).crcErrCount = s.crcErrCount := rfl
@[simp] theorem emit_record (o : StepOut) : (s.emit o).record = s.record := rfl
@[simp] theorem emit_recValid (o : StepOut) : (s.emit o).recValid = s.recValid := rfl
@[simp] theorem emit_out (o : StepOut) : (s.emit o).out = o := rfl
@[simp] theorem emit_input (o : StepOut) : (s.emit o).input = s.input := rfl

@[simp] theorem countOk_state : (s.countOk).state = s.state := rfl
@[simp] theorem countOk_buf : (s.countOk).buf = s.buf := rfl
@[simp] theorem countOk_gsel : (s.countOk).gsel = s.gsel := rfl
@[simp] theorem countOk_groups : (s.countOk).groups = s.groups := rfl
@[simp] theorem countOk_hdrLen : (s.countOk).hdrLen = s.hdrLen := rfl
@[simp] theorem countOk_payLen : (s.countOk).payLen = s.payLen := rfl
@[simp] theorem countOk_okCount : (s.countOk).okCount = satInc s.okCount := rfl
@[simp] theorem countOk_hdrErrCount : (s.countOk).hdrErrCount = s.hdrErrCount := rfl
@[simp] theorem countOk_crcErrCount : (s.countOk).crcErrCount = s.crcErrCount := rfl
@[simp] theorem countOk_record : (s.countOk).record = s.record := rfl
@[simp] theorem countOk_recValid : (s.countOk).recValid = s.recValid := rfl
@[simp] theorem countOk_out : (s.countOk).out = s.out := rfl
@[simp] theorem countOk_input : (s.countOk).input = s.input := rfl

@[simp] theorem countHdrErr_state : (s.countHdrErr).state = s.state := rfl
@[simp] theorem countHdrErr_buf : (s.countHdrErr).buf = s.buf := rfl
@[simp] theorem countHdrErr_gsel : (s.countHdrErr).gsel = s.gsel := rfl
@[simp] theorem countHdrErr_groups : (s.countHdrErr).groups = s.groups := rfl
@[simp] theorem countHdrErr_hdrLen : (s.countHdrErr).hdrLen = s.hdrLen := rfl
@[simp] theorem countHdrErr_payLen : (s.countHdrErr).payLen = s.payLen := rfl
@[simp] theorem countHdrErr_okCount : (s.countHdrErr).okCount = s.okCount := rfl
@[simp] theorem countHdrErr_hdrErrCount : (s.countHdrErr).hdrErrCount = satInc s.hdrErrCount := rfl
@[simp] theorem countHdrErr_crcErrCount : (s.countHdrErr).crcErrCount = s.crcErrCount := rfl
@[simp] theorem countHdrErr_record : (s.countHdrErr).record = s.record := rfl
@[simp] theorem countHdrErr_recValid : (s.countHdrErr).recValid = s.recValid := rfl
@[simp] theorem countHdrErr_out : (s.countHdrErr).out = s.out := rfl
@[simp] theorem countHdrErr_input : (s.countHdrErr).input = s.input := rfl

@[simp] theorem countCrcErr_state : (s.countCrcErr).state = s.state := rfl
@[simp] theorem countCrcErr_buf : (s.countCrcErr).buf = s.buf := rfl
@[simp] theorem countCrcErr_gsel : (s.countCrcErr).gsel = s.gsel := rfl
@[simp] theorem countCrcErr_groups : (s.countCrcErr).groups = s.groups := rfl
@[simp] theorem countCrcErr_hdrLen : (s.countCrcErr).hdrLen = s.hdrLen := rfl
@[simp] theorem countCrcErr_payLen : (s.countCrcErr).payLen = s.payLen := rfl
@[simp] theorem countCrcErr_okCount : (s.countCrcErr).okCount = s.okCount := rfl
@[simp] theorem countCrcErr_hdrErrCount : (s.countCrcErr).hdrErrCount = s.hdrErrCount := rfl
@[simp] theorem countCrcErr_crcErrCount : (s.countCrcErr).crcErrCount = satInc s.crcErrCount := rfl
@[simp] theorem countCrcErr_record : (s.countCrcErr).record = s.record := rfl
@[simp] theorem countCrcErr_recValid : (s.countCrcErr).recValid = s.recValid := rfl
@[simp] theorem countCrcErr_out : (s.countCrcErr).out = s.out := rfl
@[simp] theorem countCrcErr_input : (s.countCrcErr).input = s.input := rfl

@[simp] theorem storeRecord_state (r : TelemetryRecord) : (s.storeRecord r).state = s.state := rfl
@[simp] theorem storeRecord_buf (r : TelemetryRecord) : (s.storeRecord r).buf = s.buf := rfl
@[simp] theorem storeRecord_gsel (r : TelemetryRecord) : (s.storeRecord r).gsel = s.gsel := rfl
@[simp] theorem storeRecord_groups (r : TelemetryRecord) : (s.storeRecord r).groups = s.groups := rfl
@[simp] theorem storeRecord_hdrLen (r : TelemetryRecord) : (s.storeRecord r).hdrLen = s.hdrLen := rfl
@[simp] theorem storeRecord_payLen (r : TelemetryRecord) : (s.storeRecord r).payLen = s.payLen := rfl
@[simp] theorem storeRecord_okCount (r : TelemetryRecord) : (s.storeRecord r).okCount = s.okCount := rfl
@[simp] theorem storeRecord_hdrErrCount (r : TelemetryRecord) : (s.storeRecord r).hdrErrCount = s.hdrErrCount := rfl
@[simp] theorem storeRecord_crcErrCount (r : TelemetryRecord) : (s.storeRecord r).crcErrCount = s.crcErrCount := rfl
@[simp] theorem storeRecord_record (r : TelemetryRecord) : (s.storeRecord r).record = some r := rfl
@[simp] theorem storeRecord_recValid (r : TelemetryRecord) : (s.storeRecord r).recValid = true := rfl
@[simp] theorem storeRecord_out (r : TelemetryRecord) : (s.storeRecord r).out = s.out := rfl
@[simp] theorem storeRecord_input (r : TelemetryRecord) : (s.storeRecord r).input = s.input := rfl

@[simp] theorem deliver_state (evs : List Event) : (s.deliver evs).state = s.state := rfl
@[simp] theorem deliver_buf (evs : List Event) : (s.deliver evs).buf = s.buf := rfl
@[simp] theorem deliver_gsel (evs : List Event) : (s.deliver evs).gsel = s.gsel := rfl
@[simp] theorem deliver_groups (evs : List Event) : (s.deliver evs).groups = s.groups := rfl
@[simp] theorem deliver_hdrLen (evs : List Event) : (s.deliver evs).hdrLen = s.hdrLen := rfl
@[simp] theorem deliver_payLen (evs : List Event) : (s.deliver evs).payLen = s.payLen := rfl
@[simp] theorem deliver_okCount (evs : List Event) : (s.deliver evs).okCount = s.okCount := rfl
@[simp] theorem deliver_hdrErrCount (evs : List Event) : (s.deliver evs).hdrErrCount = s.hdrErrCount := rfl
@[simp] theorem deliver_crcErrCount (evs : List Event) : (s.deliver evs).crcErrCount = s.crcErrCount := rfl
@[simp] theorem deliver_record (evs : List Event) : (s.deliver evs).record = s.record := rfl
@[simp] theorem deliver_recValid (evs : List Event) : (s.deliver evs).recValid = s.recValid := rfl
@[simp] theorem deliver_out (evs : List Event) : (s.deliver evs).out = s.out := rfl
@[simp] theorem deliver_input (evs : List Event) : (s.deliver evs).input = evs ++ s.input := rfl

end Sys2Proof.Machine.State
end

