-- ==== Sys2Proof/Laws/Memory.lean ====
section
/-! SUPPORT. The frame buffer as the machine's one memory: every operation keeps the cell list canonical, the read of
a byte finds its cell, and an append touches one offset. -/

namespace Sys2Proof.Machine

/-- Every state's cell list is in canonical form, so every operation keeps it. -/
theorem State.cells_wf (s : State) : Memory.wf s.cells := by
  unfold Memory.wf State.cells
  rw [List.pairwise_map]
  have h := List.zipIdx_map_snd 0 s.buf
  have p : (s.buf.zipIdx.map Prod.snd).Pairwise (· < ·) := by
    rw [h]
    exact List.pairwise_lt_range' ..
  exact List.pairwise_map.mp p

theorem State.mem_cells {s : State} {a : Nat} {b : Byte} : (a, b) ∈ s.cells ↔ s.readByte a = some b := by
  simp [State.cells, State.readByte, List.mem_zipIdx_iff_getElem?]

@[simp] theorem State.readByte_append_self (b : Byte) (s : State) :
    (s.appendByte b).readByte s.appendAddr = some b := by
  simp [State.readByte, State.appendAddr]

theorem State.readByte_append_other (b : Byte) {s : State} {a : Nat} (h : a ≠ s.appendAddr) :
    (s.appendByte b).readByte a = s.readByte a := by
  simp only [State.readByte, State.appendByte, State.appendAddr] at *
  rcases Nat.lt_or_ge a s.buf.length with hlt | hge
  · rw [List.getElem?_append_left hlt]
  · have h1 : (s.buf ++ [b]).length ≤ a := by simp; omega
    rw [List.getElem?_eq_none h1, List.getElem?_eq_none hge]

@[simp] theorem State.readByte_clear (s : State) (a : Nat) : s.clearBuf.readByte a = none := by
  simp [State.readByte]

@[simp] theorem State.readByte_endFrame (s : State) (a : Nat) : s.endFrame.readByte a = none := by
  simp [State.readByte]

end Sys2Proof.Machine
end

