-- ==== Sys2Proof/Laws/Ops.lean ====
section
/-! SUPPORT. One lemma per shared operation that says everything it can do; later proofs cite these and unfold none of
the operations. -/

namespace Sys2Proof.Machine

/-- A saturating increment in numbers (R31). -/
theorem satInc_toNat {w : Nat} (c : BitVec w) : (satInc c).toNat = min (c.toNat + 1) (2 ^ w - 1) := by
  have hc := c.isLt
  unfold satInc
  split
  · next h => subst h; simp
  · next h =>
    have hne : c.toNat ≠ 2 ^ w - 1 := by
      intro e
      exact h (BitVec.eq_of_toNat_eq (by simpa using e))
    rw [BitVec.toNat_add, BitVec.toNat_ofNat]
    rcases Nat.eq_zero_or_pos w with rfl | hw
    · simp at hc hne; omega
    · have h1 : 1 < 2 ^ w := Nat.one_lt_two_pow (by omega)
      rw [Nat.mod_eq_of_lt h1, Nat.mod_eq_of_lt (by omega)]
      omega

@[simp] theorem andThen_next (s : State) (f : State → Result) : andThen (.next s) f = f s := rfl

theorem andThen_eq_next {r : Result} {f : State → Result} {t : State} :
    andThen r f = .next t ↔ ∃ s, r = .next s ∧ f s = .next t := by
  cases r <;> simp [andThen]

theorem returnValue_eq (v : UnitValue) (s : State) : returnValue v s = .next (s.emit (.ofValue v)) := rfl

theorem unpack_eq_ok {p : List Byte} {r : TelemetryRecord} :
    unpack p = .ok r ↔ p.length = 144 ∧ r = recordOf p := by
  unfold unpack Config.expectedPayloadLen
  split <;> simp_all [eq_comm]

theorem unpack_eq_error {p : List Byte} {e : CodecError} :
    unpack p = .error e ↔ p.length ≠ 144 ∧ e = .lengthMismatch p.length := by
  unfold unpack Config.expectedPayloadLen
  split <;> simp_all [eq_comm]

/-- Everything the header check can answer (R106). -/
theorem checkHeader_cases {s : State} {r : Result} (h : checkHeader s = r) :
    (s.buf.length = s.hdrLen ∧ resolve s.groups (slice s.buf 2 s.hdrLen) = some 144 ∧
      r = .next (((s.takePayLen 144).enter .awaitingPayloadAndChecksum).emit (.ofLabel .hdrOk))) ∨
    (s.buf.length = s.hdrLen ∧ (∃ n, resolve s.groups (slice s.buf 2 s.hdrLen) = some n ∧ n ≠ 144) ∧
      r = .next (raiseHeaderError .badLength s)) ∨
    (s.buf.length = s.hdrLen ∧ resolve s.groups (slice s.buf 2 s.hdrLen) = none ∧ r = .refused .outsideDomain) ∨
    (s.buf.length ≠ s.hdrLen ∧ r = .refused .requireFails) := by
  subst h
  unfold checkHeader
  by_cases hl : s.buf.length = s.hdrLen
  · cases hr : resolve s.groups (slice s.buf 2 s.hdrLen) with
    | none => simp [hl]
    | some n =>
      by_cases hn : n = 144
      · subst hn; simp [hl, Config.expectedPayloadLen]
      · simp [hl, hn, Config.expectedPayloadLen]
  · simp [hl]

/-- Everything the frame check can answer (R108). -/
theorem checkFrame_cases {s : State} {r : Result} (h : checkFrame s = r) :
    (s.buf.length = s.hdrLen + s.payLen + 2 ∧ crcVerify (checksumInput s.buf) (receivedChecksum s.buf) = true ∧
      ∃ rec, unpack (slice s.buf s.hdrLen (s.hdrLen + s.payLen)) = .ok rec ∧
        r = .next (completeFrame (slice s.buf s.hdrLen (s.hdrLen + s.payLen)) rec s)) ∨
    (s.buf.length = s.hdrLen + s.payLen + 2 ∧ crcVerify (checksumInput s.buf) (receivedChecksum s.buf) = false ∧
      r = .next (raiseChecksumError s)) ∨
    (s.buf.length = s.hdrLen + s.payLen + 2 ∧ s.payLen ≠ 144 ∧ r = .refused .outsideDomain) ∨
    (s.buf.length ≠ s.hdrLen + s.payLen + 2 ∧ r = .refused .requireFails) := by
  subst h
  unfold checkFrame
  by_cases hl : s.buf.length = s.hdrLen + s.payLen + 2
  · cases hv : crcVerify (checksumInput s.buf) (receivedChecksum s.buf) with
    | false => simp [hl, Config.checksumLen]
    | true =>
      cases hu : unpack (slice s.buf s.hdrLen (s.hdrLen + s.payLen)) with
      | ok rec => simp [hl, Config.checksumLen]
      | error e =>
        have hlen : (slice s.buf s.hdrLen (s.hdrLen + s.payLen)).length = s.payLen := by
          rw [slice_length (by omega)]; omega
        have : s.payLen ≠ 144 := by
          have hne := (unpack_eq_error.mp hu).1
          omega
        simp [hl, this, Config.checksumLen]
  · simp [hl, Config.checksumLen]

/-- `feed` runs the instruction the decode table selects (R86, R100). -/
theorem feed_eq_exec (b : Byte) (s : State) : feed b s = exec (decodeByte s.state b) s := by
  unfold feed decodeByte
  cases s.state
  · by_cases hb : b = Config.sync <;> simp [hb, exec]
  · rfl
  · rfl
  · rfl

/-- The state `FEED.GSEL` has before it checks the header (R104). -/
abbrev afterSelector (b : Byte) (s : State) : State :=
  ((s.appendByte b).takeSelector b).enter .awaitingFieldSelectors

/-- Everything one `FEED` can do when it goes on: the edges of the state diagram of R101. -/
theorem feed_next {b : Byte} {s t : State} (h : feed b s = .next t) :
    (s.state = .awaitingSync ∧ b = Config.sync ∧
      t = ((s.clearBuf.appendByte Config.sync).enter .awaitingGroupSelector).emit (.ofLabel .sync)) ∨
    (s.state = .awaitingSync ∧ b ≠ Config.sync ∧ t = raiseHeaderError .badSync s) ∨
    (s.state = .awaitingGroupSelector ∧ s.buf.length + 1 ≠ hdrLenOf b ∧ t = (afterSelector b s).emit (.ofLabel .gsel)) ∨
    (s.state = .awaitingGroupSelector ∧ s.buf.length + 1 = hdrLenOf b ∧ checkHeader (afterSelector b s) = .next t) ∨
    (s.state = .awaitingFieldSelectors ∧ s.buf.length + 1 ≠ s.hdrLen ∧ t = (s.appendByte b).emit (.ofLabel .fsel)) ∨
    (s.state = .awaitingFieldSelectors ∧ s.buf.length + 1 = s.hdrLen ∧ checkHeader (s.appendByte b) = .next t) ∨
    (s.state = .awaitingPayloadAndChecksum ∧ s.buf.length + 1 ≠ s.hdrLen + s.payLen + 2 ∧
      t = (s.appendByte b).emit (.ofLabel .pay)) ∨
    (s.state = .awaitingPayloadAndChecksum ∧ s.buf.length + 1 = s.hdrLen + s.payLen + 2 ∧
      checkFrame (s.appendByte b) = .next t) := by
  unfold feed at h
  cases hs : s.state <;> rw [hs] at h
  · by_cases hb : b = Config.sync
    · simp [hb, execFeedSyncHit, hs] at h
      simp [hb, ← h]
    · simp [hb, execFeedSyncMiss, hs] at h
      simp [hb, ← h]
  · simp only [execFeedGsel, hs, if_true] at h
    by_cases hl : s.buf.length + 1 = hdrLenOf b
    · have hl' := hl
      simp only [hdrLenOf] at hl'
      simp [hl'] at h
      simp [hl, h]
    · have hl' := hl
      simp only [hdrLenOf] at hl'
      simp [hl'] at h
      simp [hl, ← h]
  · simp only [execFeedFsel, hs, if_true] at h
    by_cases hl : s.buf.length + 1 = s.hdrLen
    · simp [hl] at h
      simp [hl, h]
    · simp [hl] at h
      simp [hl, ← h]
  · have e : (s.appendByte b).buf.length = s.buf.length + 1 := by simp
    simp only [execFeedPay, hs, if_true, e, State.appendByte_hdrLen, State.appendByte_payLen, Config.checksumLen] at h
    by_cases hl : s.buf.length + 1 = s.hdrLen + s.payLen + 2
    · rw [if_pos hl] at h
      exact .inr (.inr (.inr (.inr (.inr (.inr (.inr ⟨rfl, hl, h⟩))))))
    · rw [if_neg hl] at h
      exact .inr (.inr (.inr (.inr (.inr (.inr (.inl ⟨rfl, hl, by simpa using h.symm⟩))))))

@[simp] theorem feedAll_nil (s : State) : feedAll [] s = .next (s.emit {}) := rfl

/-- What feeding a byte and then a rest answers, when it goes on (R110). -/
theorem feedAll_cons_next {b : Byte} {rest : List Byte} {s v : State} :
    feedAll (b :: rest) s = .next v ↔
      ∃ t u, feed b s = .next t ∧ feedAll rest t = .next u ∧ v = u.emit (t.out.append u.out) := by
  constructor
  · intro h
    obtain ⟨t, ht, h'⟩ := andThen_eq_next.mp h
    obtain ⟨u, hu, h''⟩ := andThen_eq_next.mp h'
    exact ⟨t, u, ht, hu, by simpa using h''.symm⟩
  · rintro ⟨t, u, ht, hu, rfl⟩
    simp [feedAll, ht, hu]

/-- A step with a waiting event that decodes runs the decoded instruction on the rest. -/
theorem step_of_decode {s : State} {ev : Event} {rest : List Event} {i : Instr} (hi : s.input = ev :: rest)
    (hd : decode s.state ev = .ok i) : step s = exec i { s with input := rest } := by
  have ht : takeEvent s = (ev, { s with input := rest }) := by simp [takeEvent, hi]
  simp [step, ht, hd]

end Sys2Proof.Machine
end

