-- ==== Sys2Proof/Laws/PerInstr.lean ====
section
/-! SUPPORT. Statements made per instruction. `DecodeOfEncode`: the event an instruction encodes to decodes, in the
parser state that selects it, to the instruction. -/

namespace Sys2Proof.Laws.DecodeOfEncode

open Sys2Proof

/-- The round trip of one instruction, for every event it encodes to and every state that selects it. -/
def Statement (i : Instr) : Prop :=
  i.wf = true → ∀ ev st, encode i = some ev → (∀ p, i.selectingState = some p → st = p) → decode st ev = .ok i

theorem feedSyncHit : Statement .feedSyncHit := by
  rintro - ev st he hs
  cases he; cases hs _ rfl
  rfl

theorem feedSyncMiss (b : Byte) : Statement (.feedSyncMiss b) := by
  rintro hw ev st he hs
  cases he; cases hs _ rfl
  have hb : b ≠ Config.sync := by simpa [Instr.wf] using hw
  simp [decode, decodeByte, hb]

theorem feedGsel (b : Byte) : Statement (.feedGsel b) := by
  rintro - ev st he hs
  cases he; cases hs _ rfl
  rfl

theorem feedFsel (b : Byte) : Statement (.feedFsel b) := by
  rintro - ev st he hs
  cases he; cases hs _ rfl
  rfl

theorem feedPay (b : Byte) : Statement (.feedPay b) := by
  rintro - ev st he hs
  cases he; cases hs _ rfl
  rfl

/-- The header check has no event. -/
theorem hdrCheck : Statement .hdrCheck := fun _ _ _ he => nomatch he

/-- The frame check has no event. -/
theorem frameCheck : Statement .frameCheck := fun _ _ _ he => nomatch he

theorem feedN (bytes : List Byte) : Statement (.feedN bytes) := by
  rintro - ev st he -
  cases he; rfl

theorem idle : Statement .idle := by
  rintro - ev st he -
  cases he; rfl

theorem reset : Statement .reset := by
  rintro - ev st he -
  cases he; rfl

theorem groups (sel : Byte) : Statement (.groups sel) := by
  rintro - ev st he -
  cases he; rfl

theorem hdrlen (sel : Byte) : Statement (.hdrlen sel) := by
  rintro - ev st he -
  cases he; rfl

theorem resolve (gs : List Nat) (fb : List Byte) : Statement (.resolve gs fb) := by
  rintro - ev st he -
  cases he; rfl

theorem crcStep (acc : Word16) (b : Byte) : Statement (.crcStep acc b) := by
  rintro - ev st he -
  cases he; rfl

theorem crc16 (bytes : List Byte) : Statement (.crc16 bytes) := by
  rintro - ev st he -
  cases he; rfl

theorem crcVerify (bytes : List Byte) (rx : Word16) : Statement (.crcVerify bytes rx) := by
  rintro - ev st he -
  cases he; rfl

theorem unpack (payload : List Byte) : Statement (.unpack payload) := by
  rintro - ev st he -
  cases he; rfl

theorem pack (record : TelemetryRecord) : Statement (.pack record) := by
  rintro - ev st he -
  cases he; rfl

theorem build (sel : Byte) (words : List Word16) (payload : List Byte) : Statement (.build sel words payload) := by
  rintro - ev st he -
  cases he; rfl

theorem buildRef (record : TelemetryRecord) : Statement (.buildRef record) := by
  rintro - ev st he -
  cases he; rfl

end Sys2Proof.Laws.DecodeOfEncode
end

