-- ==== Sys2Proof/Tests/Slice0.lean ====
section
/-! SUPPORT. Tests of the model against the spec's own examples and vectors (spec/95_test_vectors.md and the examples
of the rules; each comment names the source), the refusals of WellFormed, and a witness for the hypotheses of every
statement that has some. -/

namespace Sys2Proof.Tests

open Sys2Proof Sys2Proof.Machine

/-! ## Small states -/

/-- The payload whose byte `k` is `k` (95, P1). -/
def payload1 : List Byte := (List.range 144).map (BitVec.ofNat 8)

/-- The reference header (95, section 1.2). -/
def refHeader : List Byte := [0xFA, 0x39, 0x01, 0xE9, 0x06, 0x1A, 0x01, 0x40, 0x00, 0x09]

/-- After the sync byte (95, section 6.5). -/
def stateAG : State := { State.reset with state := .awaitingGroupSelector, buf := [0xFA] }

/-- The reference header but its last byte (95, section 6.5, `A1[0..9)`). -/
def stateAF : State :=
  { State.reset with
    state := .awaitingFieldSelectors, buf := refHeader.take 9, gsel := 0x39, groups := [0, 3, 4, 5], hdrLen := 10 }

/-- The reference header complete (95, section 6.5, `A1[0..10)`). -/
def stateAP : State := { stateAF with state := .awaitingPayloadAndChecksum, buf := refHeader, payLen := 144 }

/-- Frame A1 but its last byte (95, section 6.5, `A1[0..155)`). -/
def stateLast : State := { stateAP with buf := refHeader ++ payload1 ++ [0xDA] }

/-- The state of a result that goes on. -/
def nextOf : Result → Option State
  | .next t => some t
  | .fault _ => none
  | .refused _ => none

/-- The outputs of a result that goes on. -/
def outOf (r : Result) : Option StepOut := (nextOf r).map (·.out)

/-- State and counters of a result, as the traces of 95 list them. -/
def summary (r : Result) : Option (ParserState × Nat × Nat × Nat × Nat) :=
  (nextOf r).map fun t => (t.state, t.buf.length, t.okCount.toNat, t.hdrErrCount.toNat, t.crcErrCount.toNat)

/-! ## WellFormed -/

/-- R103: the sync byte is no miss. -/
theorem test_wf_refuses_sync_as_miss : (Instr.feedSyncMiss 0xFA).wf = false := by decide

/-- R135: an index of 7. -/
theorem test_wf_refuses_index_seven : (Instr.resolve [7] [0, 0]).wf = false := by decide

/-- R135: a repeated index. -/
theorem test_wf_refuses_repeated_index : (Instr.resolve [3, 3] [0, 0, 0, 0]).wf = false := by decide

/-- U11: an unsorted list of distinct indices. -/
theorem test_wf_refuses_unsorted : (Instr.resolve [6, 0] [0, 0, 0, 0]).wf = false := by decide

/-- R135: an odd and a short byte sequence. -/
theorem test_wf_refuses_byte_count :
    (Instr.resolve [3] [0, 0, 0]).wf = false ∧ (Instr.resolve [0, 3] [0, 0]).wf = false := by decide

/-- R170: one word for two groups. -/
theorem test_wf_refuses_word_count : (Instr.build 0x09 [0x0001] []).wf = false := by decide

/-- The same checks accept what the rules allow. -/
theorem test_wf_accepts :
    (Instr.feedSyncMiss 0xFB).wf = true ∧ (Instr.resolve [0, 6] [0, 0, 0, 0]).wf = true ∧
      (Instr.build 0x09 [0x0001, 0x0002] []).wf = true := by decide

/-! ## Decoding, from the words of 30_encoding.md R70, R86 -/

theorem test_decode_sync_hit : decode .awaitingSync (.byte 0b11111010) = .ok .feedSyncHit := by decide

theorem test_decode_sync_miss : decode .awaitingSync (.byte 0b11111011) = .ok (.feedSyncMiss 0xFB) := by decide

theorem test_decode_gsel : decode .awaitingGroupSelector (.byte 0b00111001) = .ok (.feedGsel 0x39) := by decide

theorem test_decode_fsel : decode .awaitingFieldSelectors (.byte 0b11101001) = .ok (.feedFsel 0xE9) := by decide

theorem test_decode_pay : decode .awaitingPayloadAndChecksum (.byte 0b11111010) = .ok (.feedPay 0xFA) := by decide

/-- The rows with no bit pattern are named by their event (R87). -/
theorem test_decode_events :
    decode .awaitingSync (.bytes [0xFA, 0x00]) = .ok (.feedN [0xFA, 0x00]) ∧
    decode .awaitingFieldSelectors .idle = .ok .idle ∧
    decode .awaitingPayloadAndChecksum .reset = .ok .reset := by decide

theorem test_decode_units :
    decode .awaitingSync (.unit (.groups 0x39)) = .ok (.groups 0x39) ∧
    decode .awaitingSync (.unit (.hdrlen 0x39)) = .ok (.hdrlen 0x39) ∧
    decode .awaitingSync (.unit (.resolve [3] [0x1F, 0xFF])) = .ok (.resolve [3] [0x1F, 0xFF]) ∧
    decode .awaitingSync (.unit (.crcStep 0x1234 0x56)) = .ok (.crcStep 0x1234 0x56) ∧
    decode .awaitingSync (.unit (.crc16 [0x01])) = .ok (.crc16 [0x01]) ∧
    decode .awaitingSync (.unit (.crcVerify [0x39] 0xA77A)) = .ok (.crcVerify [0x39] 0xA77A) ∧
    decode .awaitingSync (.unit (.unpack [])) = .ok (.unpack []) ∧
    decode .awaitingSync (.unit (.pack (recordOf []))) = .ok (.pack (recordOf [])) ∧
    decode .awaitingSync (.unit (.build 0x00 [] [])) = .ok (.build 0x00 [] []) ∧
    decode .awaitingSync (.unit (.buildRef (recordOf []))) = .ok (.buildRef (recordOf [])) := ⟨rfl, rfl, rfl, rfl, rfl,
      rfl, rfl, rfl, rfl, rfl⟩

/-- The two checks are never a step of their own (R106, R108). -/
theorem test_decode_refuses_substeps :
    decode .awaitingFieldSelectors (.unit .hdrCheck) = .error .neverAStepOfItsOwn ∧
    decode .awaitingPayloadAndChecksum (.unit .frameCheck) = .error .neverAStepOfItsOwn ∧
    decode .awaitingSync (.unit .feedSyncHit) = .error .selectedByByteOnly ∧
    decode .awaitingSync (.unit .idle) = .error .notAFunctionUnit := by decide

/-- The one table row with fixed bits, and a step that runs it first after reset. -/
theorem test_table_word : decodeTableWord 8 250 = some .feedSyncHit ∧ decodeTableWord 8 0 = some (.feedSyncMiss 0) := by
  decide

theorem test_table_word_runs :
    nextOf (step (State.reset.withFetchWord 8 250)) =
      some { State.reset with
        state := .awaitingGroupSelector, buf := [0xFA], out := { labels := [.sync] } } := by decide

/-! ## The scanner, from 95_test_vectors.md and the examples of 41_framescanner.md -/

/-- R102, 6.1a index 3. -/
theorem test_sync_hit : outOf (exec .feedSyncHit State.reset) = some { labels := [.sync] } ∧
    summary (exec .feedSyncHit State.reset) = some (.awaitingGroupSelector, 1, 0, 0, 0) := by decide

/-- R103, 6.1a index 0. -/
theorem test_sync_miss : summary (exec (.feedSyncMiss 0x00) State.reset) = some (.awaitingSync, 0, 0, 1, 0) := by
  decide

/-- R104: `FA 39`. -/
theorem test_gsel :
    (nextOf (exec (.feedGsel 0x39) stateAG)).map (fun t => (t.buf, t.groups, t.hdrLen)) =
      some ([0xFA, 0x39], [0, 3, 4, 5], 10) := by decide

/-- 6.2b: `FA 80`, bit 7 selects nothing. -/
theorem test_gsel_bit7 : summary (exec (.feedGsel 0x80) stateAG) = some (.awaitingSync, 0, 0, 1, 0) := by decide

/-- R105: the reference header completes. -/
theorem test_fsel_ok : outOf (exec (.feedFsel 0x09) stateAF) = some { labels := [.hdrOk] } ∧
    summary (exec (.feedFsel 0x09) stateAF) = some (.awaitingPayloadAndChecksum, 10, 0, 0, 0) := by decide

/-- R131, R134: a last selector byte of 08 drops the 2-byte field 0 of group 5, so the length is 142. -/
theorem test_fsel_bad : summary (exec (.feedFsel 0x08) stateAF) = some (.awaitingSync, 0, 0, 1, 0) := by decide

/-- R107. -/
theorem test_pay : summary (exec (.feedPay 0xFA) stateAP) = some (.awaitingPayloadAndChecksum, 11, 0, 0, 0) := by
  decide

/-- 2.1 index 155. -/
theorem test_pay_completes :
    outOf (exec (.feedPay 0x87) stateLast) = some { labels := [.ok], events := [.frameComplete payload1] } := by
  decide +kernel

/-- R106: the reference header with bit 0 of the first mask cleared (6.3d). -/
theorem test_hdr_check :
    summary (exec .hdrCheck { stateAF with buf := [0xFA, 0x39, 0x01, 0xE8, 0x06, 0x1A, 0x01, 0x40, 0x00, 0x09] }) =
      some (.awaitingSync, 0, 0, 1, 0) := by decide

/-- 2.3 B2: an error in the checksum field itself. -/
theorem test_frame_check :
    summary (exec .frameCheck { stateAP with buf := refHeader ++ payload1 ++ [0xDA, 0x07] }) =
      some (.awaitingSync, 0, 0, 0, 1) := by decide +kernel

/-- Program P6: six rejected headers in a row. -/
theorem test_feedN_rejects :
    summary (exec (.feedN [0xFA, 0x00, 0xFA, 0x80, 0xFA, 0x01, 0x00, 0x00, 0xFA, 0x40, 0xFF, 0xFF, 0x55, 0xFA, 0x39,
      0x01, 0xE8, 0x06, 0x1A, 0x01, 0x40, 0x00, 0x09]) State.reset) = some (.awaitingSync, 0, 0, 6, 0) := by
  decide +kernel

/-- Program P4: the first 50 bytes of A1, then A1. -/
theorem test_feedN_truncated :
    summary (exec (.feedN (refHeader ++ payload1.take 40 ++ (refHeader ++ payload1 ++ [0xDA, 0x87]))) State.reset) =
      some (.awaitingSync, 0, 0, 50, 1) := by decide +kernel

/-- R111: `IDLE` in `AF`. -/
theorem test_idle : nextOf (exec .idle stateAF) = some { stateAF with out := { labels := [.idle] } } := by decide

/-- R112, 6.6: a frame in progress is dropped without a count. -/
theorem test_reset : summary (exec .reset { stateAP with hdrErrCount := 5, okCount := 2 }) =
    some (.awaitingSync, 0, 0, 0, 0) := by decide

/-- 6.6: saturation with `CNT_W = 2`. -/
theorem test_saturation : satInc (2 : BitVec 2) = 3 ∧ satInc (3 : BitVec 2) = 3 := by decide

/-! ## The function units -/

/-- 4.1. -/
theorem test_groups : groupsOf 0x39 = [0, 3, 4, 5] ∧ groupsOf 0xFA = [1, 3, 4, 5, 6] ∧ groupsOf 0x80 = [] := by decide

/-- 4.1. -/
theorem test_hdrlen : hdrLenOf 0x39 = 10 ∧ hdrLenOf 0xFF = 16 ∧ hdrLenOf 0x00 = 2 := by decide

/-- 4.2: the row sums, and the largest result. -/
theorem test_resolve_rows :
    (List.range 7).map (fun g => resolve [g] [0xFF, 0xFF]) =
      [some 198, some 54, some 152, some 144, some 190, some 262, some 0] ∧
    resolve [0, 1, 2, 3, 4, 5, 6] (List.replicate 14 0xFF) = some 1000 := by decide

/-- 4.2: byte order, the example of R136, program P3. -/
theorem test_resolve :
    resolve [0, 3, 4, 5] [0xE9, 0x01, 0x1A, 0x06, 0x40, 0x01, 0x09, 0x00] = some 200 ∧
    resolve [3, 5] [0x1B, 0xFB, 0x1F, 0xFF] = some 400 ∧
    resolve [1, 3, 4, 5, 6] [0x39, 0x01, 0xE9, 0x06, 0x1A, 0x01, 0x40, 0x00, 0x09, 0x00] = some 72 := by decide

/-- 3.1. -/
theorem test_crc_step : crcStep 0x1234 0x56 = 0x3C40 ∧ crcStep 0x0000 0x39 = 0xA77A ∧ crcStep 0xFFFF 0x00 = 0xE1F0 ∧
    crcStep 0x8000 0x00 = 0x9188 ∧ crcStep 0x00FF 0xFF = 0xE1F0 ∧ crcStep 0xFF00 0xFF = 0x0000 := by decide

/-- 3.2. -/
theorem test_crc16 : crc16 [0x31, 0x32, 0x33, 0x34, 0x35, 0x36, 0x37, 0x38, 0x39] = 0x31C3 ∧
    crc16 [0xFA, 0x39] = 0x5B70 ∧ crc16 [0x39, 0x01, 0xE9, 0x06, 0x1A, 0x01, 0x40, 0x00, 0x09] = 0x7707 := by decide

/-- 3.2: P1. -/
theorem test_crc16_payload : crc16 payload1 = 0xE2A3 := by decide +kernel

/-- 3.3. -/
theorem test_crc_verify : crcVerify [0x39] 0xA77A = true ∧ crcVerify [0x39] 0x7AA7 = false ∧ crcVerify [] 0 = true := by
  decide

/-- 5.1. -/
theorem test_unpack : (recordOf payload1).timestamp = 0x0706050403020100 ∧ (recordOf payload1).g3f9.e0 = 0x5D5C5B5A ∧
    (recordOf payload1).status = 0x8382 ∧ (recordOf payload1).tail.e2 = 0x8F8E8D8C ∧
    (recordOf payload1).position.e2 = 0x3736353433323130 := by decide +kernel

/-- 5.3. -/
theorem test_unpack_length : unpack (payload1.take 143) = .error (.lengthMismatch 143) ∧
    unpack (payload1 ++ [0x90]) = .error (.lengthMismatch 145) := by decide +kernel

/-- 5.1: `PACK` gives P1 back. -/
theorem test_pack : pack (recordOf payload1) = payload1 := by decide +kernel

/-- 2.4 H1 and H4: the last four bytes. -/
theorem test_build : (buildFrame 0x08 [0x1FFF] payload1).drop 146 = [0x8E, 0x8F, 0xEE, 0x4D] ∧
    (buildFrame 0x79 [0x01E9, 0x061A, 0x0140, 0x0009, 0xABCD] payload1).drop 154 = [0x8E, 0x8F, 0xCF, 0x60] := by
  decide +kernel

/-- 2.1: frame A1. -/
theorem test_build_ref : buildRefFrame (recordOf payload1) = refHeader ++ payload1 ++ [0xDA, 0x87] := by decide +kernel

/-! ## Witnesses: every statement with hypotheses has a concrete state and operands that meet them -/

/-! A state of each row of the invariant. -/

theorem witness_inv_AS : State.reset.Inv := by decide

theorem witness_inv_AG : stateAG.Inv := by decide

theorem witness_inv_AF : stateAF.Inv := by decide +kernel

theorem witness_inv_AP : stateAP.Inv := by decide +kernel

theorem witness_inv_last : stateLast.Inv := by decide +kernel

/-- StepKeepsTheInvariant: a step that goes on from a state meeting the invariant. -/
theorem witness_step_goes_on : { stateLast with input := [.byte 0x87] }.Inv ∧
    summary (step { stateLast with input := [.byte 0x87] }) = some (.awaitingSync, 0, 1, 0, 0) :=
  ⟨witness_inv_last, by decide +kernel⟩

/-- StepRunsTheDecodedInstruction: each of its three clauses. -/
theorem witness_step_clauses :
    ({ stateAF with input := [.byte 0x09, .idle] }.input = Event.byte 0x09 :: [.idle] ∧
      decode stateAF.state (.byte 0x09) = .ok (.feedFsel 0x09)) ∧
    State.reset.input = [] ∧
    ({ stateAF with input := [.unit .hdrCheck] }.input = [Event.unit .hdrCheck] ∧
      decode stateAF.state (.unit .hdrCheck) = .error .neverAStepOfItsOwn) := by decide

/-- DecodeOfEncodeGivesTheInstruction, EncodeOfDecodeGivesTheEvent. -/
theorem witness_round_trip : (Instr.feedSyncMiss 0xFB).wf = true ∧
    encode (.feedSyncMiss 0xFB) = some (.byte 0xFB) ∧
    (∀ p, (Instr.feedSyncMiss 0xFB).selectingState = some p → ParserState.awaitingSync = p) ∧
    decode .awaitingSync (.byte 0xFB) = .ok (.feedSyncMiss 0xFB) :=
  ⟨by decide, by decide, fun _ h => Option.some.inj h, by decide⟩

/-- SyncHitTakesTheSyncByte, SyncMissCountsAHeaderError, ResyncAfterJunk: bytes next to the sync byte in value. -/
theorem witness_hunting : State.reset.state = .awaitingSync ∧ State.reset.buf = [] ∧ (0xFB : Byte) ≠ 0xFA ∧
    ∀ b ∈ [(0xF9 : Byte), 0xFB], b ≠ 0xFA#8 := by decide

/-- GselStoresTheSelectorOrRejectsIt: bit 6 alone for the first clause, bit 7 alone for the second. -/
theorem witness_gsel : stateAG.Inv ∧ stateAG.state = .awaitingGroupSelector ∧ (0x40 : Byte) &&& 0x7F#8 ≠ 0#8 ∧
    (0x80 : Byte) &&& 0x7F#8 = 0#8 := by decide

/-- FselAppendsAndChecksTheHeader: the last header byte, and one that is not. -/
theorem witness_fsel : stateAF.Inv ∧ stateAF.state = .awaitingFieldSelectors ∧ stateAF.buf.length + 1 = stateAF.hdrLen ∧
    { stateAF with buf := refHeader.take 8 }.Inv ∧ (refHeader.take 8).length + 1 ≠ stateAF.hdrLen :=
  ⟨witness_inv_AF, rfl, by decide, by decide +kernel, by decide⟩

/-- HdrCheckJudgesTheResolvedLength: a header that resolves to 144, and one that resolves to 0. -/
theorem witness_hdr_check :
    (stateAP.buf.length = stateAP.hdrLen ∧ resolve stateAP.groups (slice stateAP.buf 2 stateAP.hdrLen) = some 144) ∧
    ({ stateAG with buf := [0xFA, 0x00], hdrLen := 2 }.buf.length = 2 ∧ resolve [] (slice [0xFA, 0x00] 2 2) = some 0) := by
  decide +kernel

/-- PayAppendsAndChecksTheFrame: the first payload byte and the last checksum byte. -/
theorem witness_pay : stateAP.Inv ∧ stateLast.Inv ∧ stateAP.state = .awaitingPayloadAndChecksum ∧
    stateLast.state = .awaitingPayloadAndChecksum ∧
    stateAP.buf.length + 1 ≠ stateAP.hdrLen + stateAP.payLen + 2 ∧
    stateLast.buf.length + 1 = stateLast.hdrLen + stateLast.payLen + 2 :=
  ⟨witness_inv_AP, witness_inv_last, rfl, rfl, by decide, by decide +kernel⟩

/-- FrameCheckJudgesTheChecksum: a complete frame, with an equal and with an unequal checksum. -/
theorem witness_frame_check :
    stateLast.payLen = 144 ∧ (stateLast.buf ++ [0x87]).length = stateLast.hdrLen + stateLast.payLen + 2 ∧
    Spec.frameCalc (stateLast.buf ++ [0x87]) = Spec.frameRx (stateLast.buf ++ [0x87]) ∧
    Spec.frameCalc (stateLast.buf ++ [0x07]) ≠ Spec.frameRx (stateLast.buf ++ [0x07]) := by decide +kernel

/-- RowsAreRefusedWhereNotSelected: each clause, in a state of another row. -/
theorem witness_not_selected : stateAG.state ≠ .awaitingSync ∧ State.reset.state ≠ .awaitingGroupSelector ∧
    State.reset.state ≠ .awaitingFieldSelectors ∧ State.reset.state ≠ .awaitingPayloadAndChecksum ∧
    stateAF.buf.length ≠ stateAF.hdrLen ∧ stateAP.buf.length ≠ stateAP.hdrLen + stateAP.payLen + 2 := by
  decide +kernel

/-- AppendStoresOneByte: an append that goes on, and one that ends the attempt. -/
theorem witness_append :
    ((nextOf (exec (.feedFsel 0x09) stateAF)).map fun t => t.state) = some .awaitingPayloadAndChecksum ∧
    ((nextOf (exec (.feedGsel 0x00) stateAG)).map fun t => t.state) = some .awaitingSync := by decide +kernel

/-- FeedNIsTheFoldOfFeed: a byte and a rest that both go on. -/
theorem witness_fold : ∃ t u, exec (decodeByte State.reset.state 0xFA) State.reset = .next t ∧
    exec (.feedN [0x39]) t = .next u := ⟨_, _, rfl, rfl⟩

/-- ResolveSumsTheWidths: all seven groups; the index bound at its limit. -/
theorem witness_resolve : (∀ g ∈ [0, 1, 2, 3, 4, 5, 6], g < 7) ∧ [0, 1, 2, 3, 4, 5, 6].Pairwise (· < ·) ∧
    (List.replicate 14 (0xFF : Byte)).length = 2 * [0, 1, 2, 3, 4, 5, 6].length := by decide

/-- ResolveIsAtMost1000: a result. -/
theorem witness_resolve_result : resolve [3] [0x1F, 0xFF] = some 144 := by decide

/-- OperandsOutsideTheDomainAreRefused: each way out of the domain, and the two checks in unreachable states. -/
theorem witness_outside_domain :
    (∃ g ∈ [7], 7 ≤ g) ∧ ¬ [3, 3].Pairwise (· < ·) ∧ ¬ [6, 0].Pairwise (· < ·) ∧
     ([0, 0, 0] : List Byte).length ≠ 2 * [3].length ∧
    ([] : List Word16).length ≠ (groupsOf 0x01).length ∧
    ({ stateAF with buf := refHeader, groups := [3] }.buf.length = stateAF.hdrLen ∧
      resolve [3] (slice refHeader 2 10) = none) ∧
    ({ stateAP with buf := [0xFA, 0x00, 0x00], hdrLen := 1, payLen := 0 }.buf.length = 1 + 0 + 2 ∧
      Spec.frameCalc [0xFA, 0x00, 0x00] = Spec.frameRx [0xFA, 0x00, 0x00]) := by decide +kernel

/-- CrcResidueIsZero (second clause), CrcIsLinear, SingleByteChangeChangesTheChecksum. -/
theorem witness_crc : crc16 ([0x39] ++ [0xA7, 0x7A]) = 0#16 ∧ ([0x01, 0x00] : List Byte).length = [(0x00 : Byte), 0x01].length ∧
    (0x01 : Byte) ≠ 0x00 := by decide

/-- UnpackReadsEveryElement: both clauses; CodecIsABijection. -/
theorem witness_unpack : payload1.length = 144 ∧ (payload1 ++ [0x90]).length ≠ 144 := by decide +kernel

/-- BuildAssemblesTheFrame: four words for the four groups of the reference selector. -/
theorem witness_build : Config.refFieldSel.length = (groupsOf Config.refGroupSel).length := by decide

/-- UnitsReturnAValueAndNothingElse: a unit, well formed. -/
theorem witness_unit : decode State.reset.state (.unit (.resolve [3] [0x1F, 0xFF])) = .ok (.resolve [3] [0x1F, 0xFF]) ∧
    (Instr.resolve [3] [0x1F, 0xFF]).wf = true := by decide

/-- HeaderErrorEffect (both labels), ChecksumErrorEffect, and a step for each kind of label of CountersFollowTheLabel,
AtMostOneErrorOrEvent and EventIsTheVerifiedPayload. -/
theorem witness_labels :
    (outOf (exec (decodeByte State.reset.state 0x00) State.reset)).map (·.labels) = some [.heSync] ∧
    (outOf (exec (decodeByte stateAG.state 0x00) stateAG)).map (·.labels) = some [.heLen] ∧
    (outOf (exec (decodeByte stateLast.state 0x07) stateLast)).map (·.labels) = some [.ce] ∧
    (outOf (exec (decodeByte stateLast.state 0x87) stateLast)).map (·.labels) = some [.ok] ∧
    (outOf (exec (decodeByte stateAP.state 0x00) stateAP)).map (·.labels) = some [.pay] := by decide +kernel

/-- CountersNeverDecrease, RecordIsTheLastDeliveredPayload: instructions other than `RESET` that go on, one with an
event and one with none. -/
theorem witness_not_reset : Instr.feedPay 0x87 ≠ .reset ∧
    (outOf (exec (.feedPay 0x87) stateLast)).map (fun o => o.events.getLast?) =
      some (some (.frameComplete payload1)) ∧
    (outOf (exec .idle stateLast)).map (·.events) = some [] := by decide +kernel

/-- CountingLaw: bytes that are accepted. -/
theorem witness_counting : (outOf (exec (.feedN [0x00, 0xFA, 0x00]) State.reset)).map (·.labels) =
    some [.heSync, .sync, .heLen] := by decide +kernel

/-- PayloadAndChecksumAreTakenWhole: from the end of the header, and one byte before the end of the frame. -/
theorem witness_payload_tail : stateAP.Inv ∧ stateAP.state = .awaitingPayloadAndChecksum ∧
    stateAP.buf.length + (payload1 ++ [0xDA]).length + 1 = stateAP.hdrLen + 146 ∧
    stateLast.Inv ∧ stateLast.buf.length + ([] : List Byte).length + 1 = stateLast.hdrLen + 146 :=
  ⟨witness_inv_AP, rfl, by decide +kernel, witness_inv_last, by decide +kernel⟩

/-- GranularityDoesNotMatter: a cut inside the header with an `IDLE` at the cut. -/
theorem witness_cut : ∃ t t' u, exec (.feedN [0xFA]) State.reset = .next t ∧ exec .idle t = .next t' ∧
    t.sameButOut t' ∧ exec (.feedN [0x39, 0x01]) t' = .next u := ⟨_, _, _, rfl, rfl, rfl, rfl⟩

/-- OneCallEqualsSeparateSteps: two waiting bytes. -/
theorem witness_separate_steps : { State.reset with input := [.byte 0xFA, .byte 0x39, .idle] }.input =
      [(0xFA : Byte), 0x39].map Event.byte ++ [.idle] ∧
    ∃ u, exec (.feedN [0xFA, 0x39]) { State.reset with input := [.idle] } = .next u := ⟨rfl, _, rfl⟩

/-- ValidFrameIsDelivered, AcceptanceLaw: group 3 alone with its whole row (95, H1), and a payload of the wrong
length. -/
theorem witness_valid_frame : State.reset.state = .awaitingSync ∧
    (∃ f, exec (.build 0x08 [0x1FFF] payload1) State.reset =
      .next { State.reset with out := Spec.valueOut (.bytes f) }) ∧
    resolve (groupsOf 0x08) ([(0x1FFF : Word16)].flatMap fun w => [hi w, lo w]) = some 144 ∧ payload1.length = 144 ∧
    (∃ f, exec (.build 0x08 [0x1FFF] []) State.reset =
      .next { State.reset with out := Spec.valueOut (.bytes f) }) :=
  ⟨rfl, ⟨_, rfl⟩, by decide, by decide +kernel, ⟨_, rfl⟩⟩

/-- LoopbackReturnsTheRecord. -/
theorem witness_loopback : ∃ f, exec (.buildRef (recordOf payload1)) State.reset =
    .next { State.reset with out := Spec.valueOut (.bytes f) } := ⟨_, rfl⟩

/-- StaleWorkingValuesAreInvisible: two states that differ in the stale values only, and a step. -/
theorem witness_stale : Spec.eraseStale { State.reset with gsel := 0xFF, groups := [6], hdrLen := 4, payLen := 144 } =
      Spec.eraseStale State.reset ∧ State.reset.gsel ≠ 0xFF ∧
    (∃ t, step { State.reset with gsel := 0xFF, groups := [6], hdrLen := 4, payLen := 144 } = .next t) :=
  ⟨by decide, by decide, _, rfl⟩

end Sys2Proof.Tests
end

section
/-! PROOFS. The counters and the event of a step (10_state.md R29, R30, R33): O44, O46 and O47. What a `FEED` step does
to the counters and to the outputs is said once, from `feed_next`; the three statements are read off. -/

namespace Sys2Proof.Machine

variable {s t : State}

/-! ### The checks and the function units, when they go on -/

theorem checkHeader_next (h : checkHeader s = .next t) :
    t = ((s.takePayLen 144).enter .awaitingPayloadAndChecksum).emit (.ofLabel .hdrOk) ∨
      t = raiseHeaderError .badLength s := by
  obtain ⟨-, -, hr⟩ | ⟨-, -, hr⟩ | ⟨-, -, hr⟩ | ⟨-, hr⟩ := checkHeader_cases h
  · exact .inl (Host.Outcome.next.inj hr)
  · exact .inr (Host.Outcome.next.inj hr)
  · cases hr
  · cases hr

/-- The payload of a frame that verified has 144 bytes in every state, because `UNPACK` takes no other length (R157). -/
theorem checkFrame_next (h : checkFrame s = .next t) :
    (∃ r, (slice s.buf s.hdrLen (s.hdrLen + 144)).length = 144 ∧
      t = completeFrame (slice s.buf s.hdrLen (s.hdrLen + 144)) r s) ∨
      t = raiseChecksumError s := by
  obtain ⟨hl, -, r, hu, hr⟩ | ⟨-, -, hr⟩ | ⟨-, -, hr⟩ | ⟨-, hr⟩ := checkFrame_cases h
  · have hlen := (unpack_eq_ok.mp hu).1
    have hpay : s.payLen = 144 := by
      rw [slice_length (by omega)] at hlen
      omega
    rw [hpay] at hlen hr
    exact .inl ⟨r, hlen, Host.Outcome.next.inj hr⟩
  · exact .inr (Host.Outcome.next.inj hr)
  · cases hr
  · cases hr

theorem guard_eq_next {p : Prop} [Decidable p] {r : Result} {e : Refusal} :
    (if p then r else .refused e) = .next t ↔ p ∧ r = .next t := by
  by_cases hp : p <;> simp [hp]

/-- A row that a parser state selects goes on only where the decoder selects it, for some byte (R86). -/
theorem decodeByte_of_exec_next {i : Instr} {p : ParserState} (hp : i.selectingState = some p)
    (h : exec i s = .next t) : ∃ b, decodeByte s.state b = i := by
  cases i with
  | feedSyncHit =>
    have hs : s.state = .awaitingSync := (guard_eq_next.mp h).1
    exact ⟨Config.sync, by simp [decodeByte, hs]⟩
  | feedSyncMiss b =>
    obtain ⟨hs, hb⟩ : s.state = .awaitingSync ∧ b ≠ Config.sync := (guard_eq_next.mp h).1
    exact ⟨b, by simp [decodeByte, hs, hb]⟩
  | feedGsel b =>
    have hs : s.state = .awaitingGroupSelector := (guard_eq_next.mp h).1
    exact ⟨b, by simp [decodeByte, hs]⟩
  | feedFsel b =>
    have hs : s.state = .awaitingFieldSelectors := (guard_eq_next.mp h).1
    exact ⟨b, by simp [decodeByte, hs]⟩
  | feedPay b =>
    have hs : s.state = .awaitingPayloadAndChecksum := (guard_eq_next.mp h).1
    exact ⟨b, by simp [decodeByte, hs]⟩
  | _ => cases hp

/-- A row that a parser state selects does nothing that `FEED` of some byte does not do. -/
theorem feed_of_exec_next {i : Instr} {p : ParserState} (hp : i.selectingState = some p) (h : exec i s = .next t) :
    ∃ b, feed b s = .next t := by
  obtain ⟨b, rfl⟩ := decodeByte_of_exec_next hp h
  exact ⟨b, (feed_eq_exec b s).trans h⟩

theorem returnValue_next {v : UnitValue} (h : returnValue v s = .next t) : ∃ w, t = s.emit (.ofValue w) :=
  ⟨v, (Host.Outcome.next.inj h).symm⟩

/-- A function unit that goes on returns a value and writes nothing else (R87, R88). -/
theorem exec_unit_next {i : Instr} (hu : decodeUnit i = .ok i) (h : exec i s = .next t) :
    ∃ v, t = s.emit (.ofValue v) := by
  cases i with
  | groups | hdrlen | crcStep | crc16 | crcVerify | pack | buildRef => exact returnValue_next h
  | resolve gs fb =>
    change execResolve gs fb s = .next t at h
    unfold execResolve at h
    split at h
    · exact returnValue_next h
    · cases h
  | unpack payload =>
    change execUnpack payload s = .next t at h
    unfold execUnpack at h
    split at h <;> exact returnValue_next h
  | build sel words payload => exact returnValue_next (guard_eq_next.mp h).2
  | _ => cases hu

/-! ### Which step writes which counter -/

/-- `t` is reached from `s` by a step with the one label `l`, and its counters are those of `s` with the one that `l`
stands for counted up (R30). -/
structure CountedBy (l : Label) (s t : State) : Prop where
  labels : t.out.labels = [l]
  hdrErr : t.hdrErrCount = if l = .heSync ∨ l = .heLen then satInc s.hdrErrCount else s.hdrErrCount
  crcErr : t.crcErrCount = if l = .ce then satInc s.crcErrCount else s.crcErrCount
  ok     : t.okCount = if l = .ok then satInc s.okCount else s.okCount

theorem checkHeader_countedBy (h : checkHeader s = .next t) : ∃ l, l ≠ .heSync ∧ CountedBy l s t := by
  obtain rfl | rfl := checkHeader_next h
  · exact ⟨.hdrOk, by decide, rfl, rfl, rfl, rfl⟩
  · exact ⟨.heLen, by decide, rfl, rfl, rfl, rfl⟩

theorem checkFrame_countedBy (h : checkFrame s = .next t) : ∃ l, l ≠ .heSync ∧ CountedBy l s t := by
  obtain ⟨r, -, rfl⟩ | rfl := checkFrame_next h
  · exact ⟨.ok, by decide, rfl, rfl, rfl, rfl⟩
  · exact ⟨.ce, by decide, rfl, rfl, rfl, rfl⟩

/-- An append changes no counter, so a check that follows it in the same step counts from the state before. -/
theorem feed_countedBy {b : Byte} (h : feed b s = .next t) :
    ∃ l, (l = .heSync ↔ s.state = .awaitingSync ∧ b ≠ Config.sync) ∧ CountedBy l s t := by
  obtain ⟨hs, hb, rfl⟩ | ⟨hs, hb, rfl⟩ | ⟨hs, -, rfl⟩ | ⟨hs, -, hc⟩ | ⟨hs, -, rfl⟩ | ⟨hs, -, hc⟩ | ⟨hs, -, rfl⟩ |
    ⟨hs, -, hc⟩ := feed_next h
  · exact ⟨.sync, by simp [hb], rfl, rfl, rfl, rfl⟩
  · exact ⟨.heSync, by simp [hs, hb], rfl, rfl, rfl, rfl⟩
  · exact ⟨.gsel, by simp [hs], rfl, rfl, rfl, rfl⟩
  · obtain ⟨l, hl, hcount⟩ := checkHeader_countedBy hc
    exact ⟨l, by simp [hs, hl], hcount.labels, hcount.hdrErr, hcount.crcErr, hcount.ok⟩
  · exact ⟨.fsel, by simp [hs], rfl, rfl, rfl, rfl⟩
  · obtain ⟨l, hl, hcount⟩ := checkHeader_countedBy hc
    exact ⟨l, by simp [hs, hl], hcount.labels, hcount.hdrErr, hcount.crcErr, hcount.ok⟩
  · exact ⟨.pay, by simp [hs], rfl, rfl, rfl, rfl⟩
  · obtain ⟨l, hl, hcount⟩ := checkFrame_countedBy hc
    exact ⟨l, by simp [hs, hl], hcount.labels, hcount.hdrErr, hcount.crcErr, hcount.ok⟩

/-! ### No counter is lowered -/

/-- None of the three counters is lower in `t` than in `s` (R29). -/
structure CountersLe (s t : State) : Prop where
  ok     : s.okCount.toNat ≤ t.okCount.toNat
  hdrErr : s.hdrErrCount.toNat ≤ t.hdrErrCount.toNat
  crcErr : s.crcErrCount.toNat ≤ t.crcErrCount.toNat

theorem CountersLe.trans {u : State} (h : CountersLe s t) (h' : CountersLe t u) : CountersLe s u :=
  ⟨h.ok.trans h'.ok, h.hdrErr.trans h'.hdrErr, h.crcErr.trans h'.crcErr⟩

theorem countersLe_emit (o : StepOut) (s : State) : CountersLe s (s.emit o) := ⟨le_rfl, le_rfl, le_rfl⟩

theorem toNat_le_ite_satInc {w : Nat} (p : Prop) [Decidable p] (c : BitVec w) :
    c.toNat ≤ (if p then satInc c else c).toNat := by
  by_cases hp : p
  · have hc := c.isLt
    rw [if_pos hp, satInc_toNat]
    omega
  · rw [if_neg hp]

theorem CountedBy.countersLe {l : Label} (h : CountedBy l s t) : CountersLe s t where
  ok     := h.ok ▸ toNat_le_ite_satInc _ _
  hdrErr := h.hdrErr ▸ toNat_le_ite_satInc _ _
  crcErr := h.crcErr ▸ toNat_le_ite_satInc _ _

theorem feed_countersLe {b : Byte} (h : feed b s = .next t) : CountersLe s t :=
  have ⟨_, _, hc⟩ := feed_countedBy h
  hc.countersLe

theorem feedAll_countersLe {bs : List Byte} (h : feedAll bs s = .next t) : CountersLe s t := by
  induction bs generalizing s t with
  | nil =>
    cases h
    exact countersLe_emit _ s
  | cons b rest ih =>
    obtain ⟨u, v, hu, hv, rfl⟩ := feedAll_cons_next.mp h
    exact ((feed_countersLe hu).trans (ih hv)).trans (countersLe_emit _ v)

theorem exec_countersLe {i : Instr} (hi : i ≠ .reset) (h : exec i s = .next t) : CountersLe s t := by
  cases i with
  | feedSyncHit | feedSyncMiss | feedGsel | feedFsel | feedPay =>
    obtain ⟨b, hb⟩ := feed_of_exec_next rfl h
    exact feed_countersLe hb
  | hdrCheck =>
    obtain ⟨l, -, hc⟩ := checkHeader_countedBy h
    exact hc.countersLe
  | frameCheck =>
    obtain ⟨l, -, hc⟩ := checkFrame_countedBy h
    exact hc.countersLe
  | feedN bytes => exact feedAll_countersLe h
  | idle =>
    cases h
    exact countersLe_emit _ s
  | reset => exact absurd rfl hi
  | groups | hdrlen | resolve | crcStep | crc16 | crcVerify | unpack | pack | build | buildRef =>
    obtain ⟨v, rfl⟩ := exec_unit_next rfl h
    exact countersLe_emit _ s

/-! ### The event of a step -/

theorem checkHeader_out (h : checkHeader s = .next t) : ∃ l, l ≠ .ok ∧ t.out = .ofLabel l := by
  obtain rfl | rfl := checkHeader_next h
  · exact ⟨.hdrOk, by decide, rfl⟩
  · exact ⟨.heLen, by decide, rfl⟩

/-- The outputs of one `FEED`: a label and no event, or `OK` with the 144 bytes after the header (R33, R101). -/
theorem feed_out {b : Byte} (h : feed b s = .next t) :
    (∃ l, l ≠ .ok ∧ t.out = .ofLabel l) ∨
      ∃ p, p = slice (s.buf ++ [b]) s.hdrLen (s.hdrLen + 144) ∧ p.length = 144 ∧
        t.out = { labels := [.ok], events := [.frameComplete p] } := by
  obtain ⟨-, -, rfl⟩ | ⟨-, -, rfl⟩ | ⟨-, -, rfl⟩ | ⟨-, -, hc⟩ | ⟨-, -, rfl⟩ | ⟨-, -, hc⟩ | ⟨-, -, rfl⟩ |
    ⟨-, -, hc⟩ := feed_next h
  · exact .inl ⟨.sync, by decide, rfl⟩
  · exact .inl ⟨.heSync, by decide, rfl⟩
  · exact .inl ⟨.gsel, by decide, rfl⟩
  · exact .inl (checkHeader_out hc)
  · exact .inl ⟨.fsel, by decide, rfl⟩
  · exact .inl (checkHeader_out hc)
  · exact .inl ⟨.pay, by decide, rfl⟩
  · obtain ⟨r, hp, rfl⟩ | rfl := checkFrame_next hc
    · exact .inr ⟨_, rfl, hp, rfl⟩
    · exact .inl ⟨.ce, by decide, rfl⟩

end Sys2Proof.Machine

namespace Sys2Proof.Proofs

open Sys2Proof Sys2Proof.Machine

/-- Settles O44: the label of a `FEED` step, from `feed_countedBy`, names the counter it writes; `IDLE` writes the
outputs only. -/
theorem countersFollowTheLabel : Obligations.CountersFollowTheLabel := by
  refine ⟨fun s t b h => ?_, fun s t h => ?_⟩
  · obtain ⟨l, hsync, hc⟩ := feed_countedBy ((feed_eq_exec b s).trans h)
    exact ⟨l, hc.labels, hsync, hc.hdrErr, hc.crcErr, hc.ok⟩
  · cases h
    exact ⟨rfl, rfl, rfl⟩

/-- Settles O46, from the two forms of the outputs in `feed_out`. -/
theorem eventIsTheVerifiedPayload : Obligations.EventIsTheVerifiedPayload := by
  intro s t b _ h
  obtain ⟨l, hl, ho⟩ | ⟨p, rfl, hlen, ho⟩ := feed_out ((feed_eq_exec b s).trans h)
  · simp [ho, StepOut.ofLabel, hl]
  · simp [ho, hlen]

/-- Settles O47, by cases on the instruction; `FEEDN` by induction on its bytes. -/
theorem countersNeverDecrease : Obligations.CountersNeverDecrease := by
  intro i s t hi h
  obtain ⟨hok, hhdr, hcrc⟩ := exec_countersLe hi h
  exact ⟨hok, hhdr, hcrc⟩

end Sys2Proof.Proofs
end

section
/-! PROOFS. The `FEED` rows and the two checks (41_framescanner.md R102, R103, R105 to R108): O10, O11 and O13 to O16.
Each check is brought to the spec's form of it once, from `checkHeader_cases` and `checkFrame_cases`; the row that
completes a header or a frame then ends in that form. -/

namespace Sys2Proof.Machine

variable {s : State}

/-! ### The checks, in the form the spec gives them -/

/-- The header check judges every complete header that the resolver accepts (R106). -/
theorem checkHeader_eq_afterHdrCheck {n : Nat} (hl : s.buf.length = s.hdrLen)
    (hr : resolve s.groups (slice s.buf 2 s.hdrLen) = some n) : checkHeader s = .next (Spec.afterHdrCheck s) := by
  obtain ⟨-, h144, heq⟩ | ⟨-, ⟨m, hm, hne⟩, heq⟩ | ⟨-, hnone, -⟩ | ⟨hlen, -⟩ := checkHeader_cases (s := s) rfl
  · rw [heq, Spec.afterHdrCheck, if_pos h144]
    rfl
  · have h144 : resolve s.groups (slice s.buf 2 s.hdrLen) ≠ some 144 := by simp [hm, hne]
    rw [heq, Spec.afterHdrCheck, if_neg h144]
    rfl
  · simp [hnone] at hr
  · exact absurd hl hlen

/-- The comparison of the model is R108's, over all but the first byte and the last two. -/
theorem crcVerify_iff_frameCalc (buf : List Byte) :
    crcVerify (checksumInput buf) (receivedChecksum buf) = true ↔ Spec.frameCalc buf = Spec.frameRx buf := by
  have hcovered : checksumInput buf = (buf.drop 1).take (buf.length - 3) := by
    simp [checksumInput, slice, Config.checksumLen, Nat.sub_sub]
  rw [crcVerify, beq_iff_eq, hcovered]
  rfl

/-- The frame check judges every complete frame of the supported length (R108). -/
theorem checkFrame_eq_afterFrameCheck (hp : s.payLen = 144) (hl : s.buf.length = s.hdrLen + s.payLen + 2) :
    checkFrame s = .next (Spec.afterFrameCheck s) := by
  have hpayload : slice s.buf s.hdrLen (s.hdrLen + s.payLen) = Spec.framePayload s := by
    simp [slice, Spec.framePayload, hp]
  obtain ⟨-, hv, r, hu, heq⟩ | ⟨-, hv, heq⟩ | ⟨-, hne, -⟩ | ⟨hlen, -⟩ := checkFrame_cases (s := s) rfl
  · rw [hpayload] at hu heq
    rw [heq, Spec.afterFrameCheck, if_pos ((crcVerify_iff_frameCalc s.buf).mp hv), hu]
    rfl
  · have hne : Spec.frameCalc s.buf ≠ Spec.frameRx s.buf := by simp [← crcVerify_iff_frameCalc, hv]
    rw [heq, Spec.afterFrameCheck, if_neg hne]
    rfl
  · exact absurd hp hne
  · exact absurd hl hlen

/-! ### The appending rows where they are selected -/

theorem execFeedFsel_eq (b : Byte) (hs : s.state = .awaitingFieldSelectors) :
    execFeedFsel b s =
      if s.buf.length + 1 = s.hdrLen then checkHeader (s.appendByte b)
      else .next ((s.appendByte b).emit (.ofLabel .fsel)) := by
  simp [execFeedFsel, hs]

theorem execFeedPay_eq (b : Byte) (hs : s.state = .awaitingPayloadAndChecksum) :
    execFeedPay b s =
      if s.buf.length + 1 = s.hdrLen + s.payLen + 2 then checkFrame (s.appendByte b)
      else .next ((s.appendByte b).emit (.ofLabel .pay)) := by
  simp [execFeedPay, hs, Config.checksumLen]

/-- The groups of a header in progress are those of its selector, so its bytes, once complete, are operands inside the
resolver's contract (R24, R135). -/
theorem State.headerHeld.resolves (h : s.headerHeld) {bs : List Byte} (hl : bs.length = s.hdrLen) :
    ∃ n, resolve s.groups (slice bs 2 s.hdrLen) = some n := by
  obtain ⟨-, -, hgroups, -, hhdr⟩ := h
  have hfb : (slice bs 2 s.hdrLen).length = 2 * (groupsOf s.gsel).length := by
    rw [slice_length hl.ge, hhdr, hgroups]
    omega
  rw [resolve, hgroups, if_pos (resolveDomain_groupsOf hfb)]
  exact ⟨_, rfl⟩

end Sys2Proof.Machine

namespace Sys2Proof.Proofs

open Sys2Proof Sys2Proof.Machine

/-- Settles O13: by the invariant the header that completes is one the resolver accepts. -/
theorem fselAppendsAndChecksTheHeader : Obligations.FselAppendsAndChecksTheHeader := by
  intro s b hinv hs
  obtain ⟨-, -, haf, -, -⟩ := hinv
  obtain ⟨hheld, -, -⟩ := haf hs
  refine (execFeedFsel_eq b hs).trans ?_
  by_cases hl : s.buf.length + 1 = s.hdrLen
  · have hlen : (s.appendByte b).buf.length = s.hdrLen := by simpa using hl
    obtain ⟨n, hn⟩ := hheld.resolves hlen
    rw [if_pos hl, if_pos hl]
    exact checkHeader_eq_afterHdrCheck hlen hn
  · rw [if_neg hl, if_neg hl]
    rfl

/-- Settles O15: by the invariant the payload length is the supported one. -/
theorem payAppendsAndChecksTheFrame : Obligations.PayAppendsAndChecksTheFrame := by
  intro s b hinv hs
  obtain ⟨-, -, -, hap, -⟩ := hinv
  obtain ⟨-, -, -, hpay, -⟩ := hap hs
  refine (execFeedPay_eq b hs).trans ?_
  by_cases hl : s.buf.length + 1 = s.hdrLen + s.payLen + 2
  · rw [if_pos hl, if_pos hl]
    exact checkFrame_eq_afterFrameCheck (s := s.appendByte b) hpay (by simpa using hl)
  · rw [if_neg hl, if_neg hl]
    rfl

/-- Settles O16, from `checkFrame_eq_afterFrameCheck`. -/
theorem frameCheckJudgesTheChecksum : Obligations.FrameCheckJudgesTheChecksum :=
  fun _ hp hl => checkFrame_eq_afterFrameCheck hp hl

/-- Settles O10: the row is selected in `AwaitingSync`. -/
theorem syncHitTakesTheSyncByte : Obligations.SyncHitTakesTheSyncByte :=
  fun _ hs => if_pos hs

/-- Settles O11: the row is selected in `AwaitingSync` for every byte but the sync byte. -/
theorem syncMissCountsAHeaderError : Obligations.SyncMissCountsAHeaderError :=
  fun _ _ hs hb => if_pos ⟨hs, hb⟩

/-- Settles O14: the resolved length picks the branch of `Spec.afterHdrCheck`. -/
theorem hdrCheckJudgesTheResolvedLength : Obligations.HdrCheckJudgesTheResolvedLength := by
  intro s n hl hr
  refine (checkHeader_eq_afterHdrCheck hl hr).trans ?_
  by_cases hn : n = 144
  · simp [Spec.afterHdrCheck, hr, hn]
  · simp [Spec.afterHdrCheck, hr, hn]

end Sys2Proof.Proofs
end

section
/-! PROOFS. The length resolver (42_length_resolver.md R133, R134, R137): O24, O25 and O26. The recursion of the model
over pairs of selector bytes is brought to the double sum of R134 once, one group at a time. -/

namespace Sys2Proof.Machine

/-- The bytes one group's mask adds, over the number its two selector bytes spell, high byte first (R134). -/
theorem maskWidth_be16 (g : Nat) (h l : Byte) :
    maskWidth g (be16 h l) =
      ∑ j ∈ Finset.range 16, if (h.toNat * 256 + l.toNat).testBit j then widthOf g j else 0 := by
  simp only [← be16_toNat, BitVec.testBit_toNat]
  rfl

/-- The first group takes the first two selector bytes; the masks of the others stand in the bytes after them. -/
theorem widthSum_cons (g : Nat) (gs : List Nat) (h l : Byte) (fb : List Byte) :
    Spec.widthSum (g :: gs) (h :: l :: fb) = maskWidth g (be16 h l) + Spec.widthSum gs fb := by
  rw [Spec.widthSum, List.length_cons, Finset.sum_range_succ', add_comm, maskWidth_be16]
  rfl

/-- The model's recursion is the double sum of R134 when every group has its two selector bytes. -/
theorem totalWidth_eq_widthSum {gs : List Nat} {fb : List Byte} (h : fb.length = 2 * gs.length) :
    totalWidth gs fb = Spec.widthSum gs fb := by
  induction gs generalizing fb with
  | nil => simp [totalWidth, Spec.widthSum]
  | cons g gs ih =>
    match fb, h with
    | hb :: lb :: fb, h =>
      have htail : fb.length = 2 * gs.length := by
        simp only [List.length_cons] at h
        omega
      rw [totalWidth, widthSum_cons, ih htail]

/-- `RESOLVE` is the double sum of R134 everywhere inside its contract (R135). -/
theorem resolve_eq_widthSum {gs : List Nat} {fb : List Byte} (h : resolveDomain gs fb = true) :
    resolve gs fb = some (Spec.widthSum gs fb) := by
  obtain ⟨-, -, hlen⟩ := resolveDomain_iff.mp h
  rw [resolve, if_pos h, totalWidth_eq_widthSum hlen]

/-- `RESOLVE` returns the number the resolver gives and touches nothing else (R87, R88). -/
theorem execResolve_of_some {gs : List Nat} {fb : List Byte} {n : Nat} (s : State) (h : resolve gs fb = some n) :
    execResolve gs fb s = returnValue (.length n) s := by
  rw [execResolve, h]

end Sys2Proof.Machine

namespace Sys2Proof.Proofs

open Sys2Proof Sys2Proof.Machine

/-- Settles O25: inside the contract the resolver gives the double sum, by `resolve_eq_widthSum`. -/
theorem resolveSumsTheWidths : Obligations.ResolveSumsTheWidths := by
  intro s gs fb hidx hasc hlen
  exact execResolve_of_some s (resolve_eq_widthSum (resolveDomain_iff.mpr ⟨hidx, hasc, hlen⟩))

/-- Settles O24: a selector byte names at most seven groups; the corner cases and the example are evaluated. -/
theorem hdrlenCountsTheGroups : Obligations.HdrlenCountsTheGroups := by
  intro s sel
  have hseven := groupsOf_length_le sel
  exact ⟨rfl, by omega, by omega, by decide, by decide, by decide⟩

/-- Settles O26: the four reference masks and their four partial sums (R137), evaluated. -/
theorem referenceSelectorsResolveTo144 : Obligations.ReferenceSelectorsResolveTo144 :=
  ⟨by decide, by decide, by decide, by decide, by decide⟩

end Sys2Proof.Proofs
end

section
/-! PROOFS. The checksum engine (43_checksum.md R142, R143): O30 and O31. The mixing clauses of a checksum step lose
nothing and keep a word whose low byte is 0; so one accumulator only leads to such a word on a given byte, and the
residue form of R143 is that fact used for the two bytes of the received word. -/

namespace Sys2Proof.Machine

/-! ### The mixing clauses of a checksum step -/

/-- Third clause of R141: the high nibble of the low byte, into bits 3 to 0. -/
def mixNibble (a : Word16) : Word16 := a ^^^ ((a &&& 0x00FF#16) >>> 4)

/-- Fourth clause of R141: the low nibble, into bits 15 to 12. -/
def mixTop (a : Word16) : Word16 := a ^^^ (a <<< 12)

/-- Fifth clause of R141: the low byte, into bits 12 to 5. -/
def mixLow (a : Word16) : Word16 := a ^^^ ((a &&& 0x00FF#16) <<< 5)

/-- What R141 does to the accumulator once the byte is taken in. -/
def crcMix (a : Word16) : Word16 := mixLow (mixTop (mixNibble a))

/-- A linear update `x ↦ x ^ N x` loses nothing when `N` repeated gives 0: the difference of two words with the same
image is fixed by `N`. -/
theorem xor_injective_of_nilpotent {N : Word16 → Word16} (hlin : ∀ x y, N (x ^^^ y) = N x ^^^ N y)
    (hnil : ∀ x, N (N (N x)) = 0#16) : Function.Injective fun x => x ^^^ N x := by
  intro x y h
  have hfix : N (x ^^^ y) = x ^^^ y := by
    apply (BitVec.xor_eq_zero_iff.mp _).symm
    calc (x ^^^ y) ^^^ N (x ^^^ y) = (x ^^^ N x) ^^^ (y ^^^ N y) := by rw [hlin]; ac_rfl
      _ = 0#16 := BitVec.xor_eq_zero_iff.mpr h
  have hzero := hnil (x ^^^ y)
  rw [hfix, hfix, hfix] at hzero
  exact BitVec.xor_eq_zero_iff.mp hzero

theorem xor_and_lowByte (x y : Word16) :
    (x ^^^ y) &&& 0x00FF#16 = (x &&& 0x00FF#16) ^^^ (y &&& 0x00FF#16) := by
  ext i hi'
  simp [Bool.and_xor_distrib_right]

theorem mixNibble_injective : Function.Injective mixNibble := by
  apply xor_injective_of_nilpotent
  · intro x y
    rw [xor_and_lowByte, BitVec.ushiftRight_xor_distrib]
  · intro x
    simp [BitVec.ushiftRight_and_distrib, BitVec.and_assoc, ← BitVec.shiftRight_add]

theorem mixTop_injective : Function.Injective mixTop := by
  apply xor_injective_of_nilpotent
  · intro x y
    exact BitVec.shiftLeft_xor_distrib x y 12
  · intro x
    simp [← BitVec.shiftLeft_add]

theorem mixLow_injective : Function.Injective mixLow := by
  apply xor_injective_of_nilpotent
  · intro x y
    rw [xor_and_lowByte, BitVec.shiftLeft_xor_distrib]
  · intro x
    simp [BitVec.shiftLeft_and_distrib, BitVec.and_assoc, ← BitVec.shiftLeft_add]

theorem crcMix_injective : Function.Injective crcMix :=
  mixLow_injective.comp (mixTop_injective.comp mixNibble_injective)

/-! ### A step in bytes -/

theorem and_lowByte (w : Word16) : w &&& 0x00FF#16 = (lo w).setWidth 16 := by
  apply BitVec.eq_of_toNat_eq
  calc (w &&& 0x00FF#16).toNat = w.toNat % 2 ^ 8 := Nat.and_two_pow_sub_one_eq_mod w.toNat 8
    _ = (lo w).toNat := (BitVec.toNat_setWidth 8 w).symm
    _ = ((lo w).setWidth 16).toNat := (BitVec.toNat_setWidth_of_le (by decide)).symm

theorem be16_inj {h l h' l' : Byte} : be16 h l = be16 h' l' ↔ h = h' ∧ l = l' := by
  refine ⟨fun e => ⟨?_, ?_⟩, fun ⟨eh, el⟩ => eh ▸ el ▸ rfl⟩
  · simpa using congrArg hi e
  · simpa using congrArg lo e

/-- The mixing clauses read the low byte only, so with low byte 0 they change nothing. -/
theorem crcMix_be16_zero (h : Byte) : crcMix (be16 h 0x00#8) = be16 h 0x00#8 := by
  have hmask : be16 h 0x00#8 &&& 0x00FF#16 = 0#16 := by
    rw [and_lowByte, lo_be16]
    rfl
  have htop : be16 h 0x00#8 <<< 12 = 0#16 := by simp [be16, ← BitVec.shiftLeft_add]
  simp [crcMix, mixNibble, mixTop, mixLow, hmask, htop]

/-- The first two clauses of R141: the bytes change places, and `b` enters the low one. -/
theorem swap_xor_byte (h l b : Byte) :
    (be16 h l >>> 8 ||| be16 h l <<< 8) ^^^ b.setWidth 16 = be16 l (h ^^^ b) := by
  ext i hi'
  by_cases h8 : i < 8
  · have h16 : 8 + i < 16 := by omega
    simp [be16, h8, h16]
  · have hb : 8 ≤ i := by omega
    have hsub : i - 8 < 8 := by omega
    simp [be16, h8, hi', hsub, hb]

theorem crcStep_be16 (h l b : Byte) : crcStep (be16 h l) b = crcMix (be16 l (h ^^^ b)) := by
  rw [← swap_xor_byte]
  rfl

/-- One accumulator only is led to a word with low byte 0 by a given byte. -/
theorem crcStep_eq_be16_zero_iff {acc : Word16} {b a : Byte} :
    crcStep acc b = be16 a 0x00#8 ↔ acc = be16 b a := by
  rw [← be16_hi_lo acc]
  calc crcStep (be16 (hi acc) (lo acc)) b = be16 a 0x00#8
      ↔ crcMix (be16 (lo acc) (hi acc ^^^ b)) = crcMix (be16 a 0x00#8) := by rw [crcStep_be16, crcMix_be16_zero]
    _ ↔ be16 (lo acc) (hi acc ^^^ b) = be16 a 0x00#8 := crcMix_injective.eq_iff
    _ ↔ be16 (hi acc) (lo acc) = be16 b a := by rw [be16_inj, be16_inj, BitVec.xor_eq_zero_iff, and_comm]

/-! ### The checksum of a sequence -/

@[simp] theorem crc16_nil : crc16 [] = 0x0000#16 := rfl

theorem crc16_concat (bytes : List Byte) (b : Byte) : crc16 (bytes ++ [b]) = crcStep (crc16 bytes) b := by
  simp [crc16]

/-- A zero byte leaves the start value 0 (R142). -/
theorem crc16_zero_cons (bytes : List Byte) : crc16 (0x00#8 :: bytes) = crc16 bytes := rfl

theorem crc16_replicate_zero_append (n : Nat) (bytes : List Byte) :
    crc16 (List.replicate n 0x00#8 ++ bytes) = crc16 bytes := by
  induction n with
  | zero => rfl
  | succ n ih => rw [List.replicate_succ, List.cons_append, crc16_zero_cons, ih]

/-- The residue law (R147), both directions at once: going back from the accumulator 0, the two bytes are the two bytes
of the checksum before them. -/
theorem crc16_append_pair_eq_zero_iff (bytes : List Byte) (h l : Byte) :
    crc16 (bytes ++ [h, l]) = 0#16 ↔ crc16 bytes = be16 h l := by
  calc crc16 (bytes ++ [h, l]) = 0#16
      ↔ crcStep (crcStep (crc16 bytes) h) l = be16 0x00#8 0x00#8 := by simp [crc16, be16]
    _ ↔ crcStep (crc16 bytes) h = be16 l 0x00#8 := crcStep_eq_be16_zero_iff
    _ ↔ crc16 bytes = be16 h l := crcStep_eq_be16_zero_iff

theorem crcVerify_iff {bytes : List Byte} {rx : Word16} : crcVerify bytes rx = true ↔ crc16 bytes = rx :=
  beq_iff_eq

end Sys2Proof.Machine

namespace Sys2Proof.Proofs

open Sys2Proof Sys2Proof.Machine

/-- Settles O30: the laws of the fold, by `crc16_concat` and `crc16_replicate_zero_append`; R142's values are
evaluated. -/
theorem crc16IsTheLeftFold : Obligations.Crc16IsTheLeftFold :=
  ⟨fun _ _ => rfl, crc16_nil, crc16_concat, crc16_replicate_zero_append, by decide, by decide, by decide, by decide⟩

/-- Settles O31: the verdict compares the two words, and the residue law gives its other form. -/
theorem crcVerifyComparesAllBits : Obligations.CrcVerifyComparesAllBits := by
  intro s bytes rx
  refine ⟨crcVerify bytes rx, rfl, crcVerify_iff, ?_⟩
  rw [crcVerify_iff, crc16_append_pair_eq_zero_iff, be16_hi_lo]

end Sys2Proof.Proofs
end

section
/-! PROOFS. The telemetry codec (44_telemetry_codec.md R153 to R155, R157): O36 and O37. The table of a record that was
read is the layout of R153 with the values of the bytes; the bytes of a record that is written can be read back
element by element, because every element begins where the one before it ends. -/

namespace Sys2Proof.Machine

/-! ### Reading -/

/-- An element of whole bytes loses nothing of the little-endian value of its bytes (R151, R152). -/
theorem element_toNat {w : Nat} (hw : 8 ∣ w) (p : List Byte) (o : Nat) :
    (element w p o).toNat = leNat (slice p o (o + w / 8)) := by
  have hlen : (slice p o (o + w / 8)).length ≤ w / 8 := by simp [slice]
  have hlt : leNat (slice p o (o + w / 8)) < 2 ^ w :=
    calc leNat (slice p o (o + w / 8)) < 256 ^ (slice p o (o + w / 8)).length := leNat_lt _
      _ ≤ 256 ^ (w / 8) := Nat.pow_le_pow_right (by decide) hlen
      _ = 2 ^ (8 * (w / 8)) := (Nat.pow_mul 2 8 (w / 8)).symm
      _ = 2 ^ w := by rw [Nat.mul_div_cancel' hw]
  rw [element, BitVec.toNat_ofNat, Nat.mod_eq_of_lt hlt]

/-- The table of every record has the offsets and sizes of R153. -/
theorem elementTable_layout (r : TelemetryRecord) :
    (elementTable r).map (fun e => (e.1, e.2.1)) = Spec.elementLayout := rfl

/-- The table of the record cut from a payload: the layout of R153, each element with the value of its bytes (R154). -/
theorem elementTable_recordOf (p : List Byte) :
    elementTable (recordOf p) = Spec.elementLayout.map fun e => (e.1, e.2, leNat (slice p e.1 (e.1 + e.2))) := by
  have h64 := element_toNat (w := 64) (by decide) p
  have h32 := element_toNat (w := 32) (by decide) p
  have h16 := element_toNat (w := 16) (by decide) p
  have h8 := element_toNat (w := 8) (by decide) p
  simp only [elementTable, recordOf, h64, h32, h16, h8]
  rfl

theorem execUnpack_of_length {p : List Byte} (h : p.length = 144) (s : State) :
    execUnpack p s = returnValue (.record (recordOf p)) s := by
  rw [execUnpack, unpack_eq_ok.mpr ⟨h, rfl⟩]

theorem execUnpack_of_length_ne {p : List Byte} (h : p.length ≠ 144) (s : State) :
    execUnpack p s = returnValue (.error (.lengthMismatch p.length)) s := by
  rw [execUnpack, unpack_eq_error.mpr ⟨h, rfl⟩]

/-! ### Writing -/

/-- A piece, given by offset and size, begins where the piece before it ends. -/
abbrev Adjoins (a b : Nat × Nat) : Prop := b.1 = a.1 + a.2

/-- The elements of R153 tile the payload from offset 0 with no padding (R155). -/
theorem elementLayout_isChain : ((0, 0) :: Spec.elementLayout).IsChain Adjoins := by decide

/-- The bytes between the lengths of what stands before and after a piece are that piece. -/
theorem slice_append_append (pre mid post : List Byte) :
    slice (pre ++ (mid ++ post)) pre.length (pre.length + mid.length) = mid := by
  simp [slice]

/-- Elements that adjoin one another, the first of them at the end of `pre`, are found at their offsets in their bytes
written one after the other behind `pre`. -/
theorem slice_append_flatMap {es : List (Nat × Nat × Nat)} {last : Nat × Nat} {pre : List Byte}
    (hpre : pre.length = last.1 + last.2) (h : (last :: es.map fun e => (e.1, e.2.1)).IsChain Adjoins) :
    ∀ e ∈ es, slice (pre ++ es.flatMap fun e => bytesLe e.2.1 e.2.2) e.1 (e.1 + e.2.1) = bytesLe e.2.1 e.2.2 := by
  induction es generalizing last pre with
  | nil => simp
  | cons x es ih =>
    obtain ⟨hx, hes⟩ := List.isChain_cons_cons.mp h
    have hoff : x.1 = pre.length := hx.trans hpre.symm
    rw [List.flatMap_cons]
    refine List.forall_mem_cons.mpr ⟨?_, ?_⟩
    · simpa [hoff] using slice_append_append pre (bytesLe x.2.1 x.2.2) (es.flatMap fun e => bytesLe e.2.1 e.2.2)
    · rw [← List.append_assoc]
      exact ih (by simp [hoff]) hes

theorem pack_length (r : TelemetryRecord) : (pack r).length = 144 :=
  calc (pack r).length = (((elementTable r).map fun e => (e.1, e.2.1)).map Prod.snd).sum := by
        simp [pack, List.length_flatMap, Function.comp_def]
    _ = (Spec.elementLayout.map Prod.snd).sum := by rw [elementTable_layout]
    _ = 144 := by decide

/-- Every element's bytes stand at its offset in the packed record (R155). -/
theorem slice_pack {r : TelemetryRecord} {e : Nat × Nat × Nat} (he : e ∈ elementTable r) :
    slice (pack r) e.1 (e.1 + e.2.1) = bytesLe e.2.1 e.2.2 := by
  have hchain : ((0, 0) :: (elementTable r).map fun e => (e.1, e.2.1)).IsChain Adjoins := by
    rw [elementTable_layout]
    exact elementLayout_isChain
  exact slice_append_flatMap (pre := []) rfl hchain e he

end Sys2Proof.Machine

namespace Sys2Proof.Proofs

open Sys2Proof Sys2Proof.Machine

/-- Settles O36: the record is the one cut from the payload, whose table is `elementTable_recordOf`. -/
theorem unpackReadsEveryElement : Obligations.UnpackReadsEveryElement := by
  refine ⟨fun s p hp => ⟨recordOf p, execUnpack_of_length hp s, elementTable_layout _, ?_⟩,
    fun s _ hp => execUnpack_of_length_ne hp s⟩
  rw [elementTable_recordOf]
  exact List.forall_mem_map.mpr fun _ _ => rfl

/-- Settles O37: the sizes add up to 144, and each element is found at its offset by `slice_pack`. -/
theorem packWritesEveryElement : Obligations.PackWritesEveryElement :=
  fun _ r => ⟨pack r, rfl, pack_length r, fun _ => slice_pack⟩

end Sys2Proof.Proofs
end

section
/-! PROOFS. The effect of the two errors (60_exceptions.md R183, R184): O42 and O43. A `FEED` step that raises an error
raises it after writes that leave the counters and the record alone; `feed_raise_cases` says this once. -/

namespace Sys2Proof.Machine

variable {s t : State}

/-- `u` has the counters and the record of `s`: what a step may have written before it raises an error is the buffer,
the sequencer and the working values of the frame. -/
structure SameStatus (s u : State) : Prop where
  ok       : u.okCount = s.okCount
  hdrErr   : u.hdrErrCount = s.hdrErrCount
  crcErr   : u.crcErrCount = s.crcErrCount
  record   : u.record = s.record
  recValid : u.recValid = s.recValid

theorem sameStatus_refl (s : State) : SameStatus s s := ⟨rfl, rfl, rfl, rfl, rfl⟩

theorem sameStatus_appendByte (b : Byte) (s : State) : SameStatus s (s.appendByte b) := ⟨rfl, rfl, rfl, rfl, rfl⟩

theorem sameStatus_afterSelector (b : Byte) (s : State) : SameStatus s (afterSelector b s) :=
  ⟨rfl, rfl, rfl, rfl, rfl⟩

/-- `t` is reached by raising a header error where the counters and the record are those of `s` (R183). -/
def RaisesHeaderError (s t : State) : Prop := ∃ u cause, SameStatus s u ∧ t = raiseHeaderError cause u

/-- `t` is reached by raising a checksum error where the counters and the record are those of `s` (R184). -/
def RaisesChecksumError (s t : State) : Prop := ∃ u, SameStatus s u ∧ t = raiseChecksumError u

/-- `t` is reached by a step whose one label stands for no error (R101, R180). -/
def RaisesNoError (t : State) : Prop := ∃ l, l.errorClass = none ∧ t.out.labels = [l]

theorem checkHeader_raise_cases {u : State} (hu : SameStatus s u) (h : checkHeader u = .next t) :
    RaisesHeaderError s t ∨ RaisesNoError t := by
  obtain rfl | rfl := checkHeader_next h
  · exact .inr ⟨.hdrOk, rfl, rfl⟩
  · exact .inl ⟨u, .badLength, hu, rfl⟩

theorem checkFrame_raise_cases {u : State} (hu : SameStatus s u) (h : checkFrame u = .next t) :
    RaisesChecksumError s t ∨ RaisesNoError t := by
  obtain ⟨r, -, rfl⟩ | rfl := checkFrame_next h
  · exact .inr ⟨.ok, rfl, rfl⟩
  · exact .inl ⟨u, hu, rfl⟩

/-- The errors of a `FEED` step: a missed sync byte, a header check, a frame check, and no other (R180). -/
theorem feed_raise_cases {b : Byte} (h : feed b s = .next t) :
    RaisesHeaderError s t ∨ RaisesChecksumError s t ∨ RaisesNoError t := by
  obtain ⟨-, -, rfl⟩ | ⟨-, -, rfl⟩ | ⟨-, -, rfl⟩ | ⟨-, -, hc⟩ | ⟨-, -, rfl⟩ | ⟨-, -, hc⟩ | ⟨-, -, rfl⟩ |
    ⟨-, -, hc⟩ := feed_next h
  · exact .inr (.inr ⟨.sync, rfl, rfl⟩)
  · exact .inl ⟨s, .badSync, sameStatus_refl s, rfl⟩
  · exact .inr (.inr ⟨.gsel, rfl, rfl⟩)
  · exact (checkHeader_raise_cases (sameStatus_afterSelector b s) hc).imp_right .inr
  · exact .inr (.inr ⟨.fsel, rfl, rfl⟩)
  · exact (checkHeader_raise_cases (sameStatus_appendByte b s) hc).imp_right .inr
  · exact .inr (.inr ⟨.pay, rfl, rfl⟩)
  · exact .inr (checkFrame_raise_cases (sameStatus_appendByte b s) hc)

/-! ### The labels of the three cases -/

theorem RaisesHeaderError.ce_not_mem (h : RaisesHeaderError s t) : .ce ∉ t.out.labels := by
  obtain ⟨u, cause, -, rfl⟩ := h
  cases cause <;> simp [raiseHeaderError, StepOut.ofLabel, HeaderCause.label]

theorem RaisesChecksumError.labels (h : RaisesChecksumError s t) : t.out.labels = [.ce] := by
  obtain ⟨u, -, rfl⟩ := h
  rfl

theorem RaisesNoError.errorClass_of_mem (h : RaisesNoError t) {l : Label} (hl : l ∈ t.out.labels) :
    l.errorClass = none := by
  obtain ⟨l', hnone, hlabels⟩ := h
  rw [hlabels, List.mem_singleton] at hl
  exact hl ▸ hnone

/-- A step labelled with a header error is one that raises it. -/
theorem feed_raisesHeaderError {b : Byte} (h : feed b s = .next t)
    (hl : .heSync ∈ t.out.labels ∨ .heLen ∈ t.out.labels) : RaisesHeaderError s t := by
  obtain hhdr | hcrc | hnone := feed_raise_cases h
  · exact hhdr
  · simp [hcrc.labels] at hl
  · obtain hsync | hlen := hl
    · cases hnone.errorClass_of_mem hsync
    · cases hnone.errorClass_of_mem hlen

/-- A step labelled with a checksum error is one that raises it. -/
theorem feed_raisesChecksumError {b : Byte} (h : feed b s = .next t) (hl : .ce ∈ t.out.labels) :
    RaisesChecksumError s t := by
  obtain hhdr | hcrc | hnone := feed_raise_cases h
  · exact absurd hl hhdr.ce_not_mem
  · exact hcrc
  · cases hnone.errorClass_of_mem hl

end Sys2Proof.Machine

namespace Sys2Proof.Proofs

open Sys2Proof Sys2Proof.Machine

/-- Settles O42: the raise counts from the header errors of the state before the step, and keeps the rest of the
status. -/
theorem headerErrorEffect : Obligations.HeaderErrorEffect := by
  intro s t b h hl
  obtain ⟨u, cause, hu, rfl⟩ := feed_raisesHeaderError ((feed_eq_exec b s).trans h) hl
  exact ⟨congrArg satInc hu.hdrErr, rfl, rfl, rfl, hu.ok, hu.crcErr, hu.record, hu.recValid⟩

/-- Settles O43: the raise counts from the checksum errors of the state before the step, and keeps the rest of the
status. -/
theorem checksumErrorEffect : Obligations.ChecksumErrorEffect := by
  intro s t b h hl
  obtain ⟨u, hu, rfl⟩ := feed_raisesChecksumError ((feed_eq_exec b s).trans h) hl
  exact ⟨congrArg satInc hu.crcErr, rfl, rfl, rfl, hu.record, hu.recValid, hu.ok, hu.hdrErr⟩

end Sys2Proof.Proofs
end

section
/-! PROOFS. The decoder and the encoder (30_encoding.md R70, R86, R87): O5 to O8. What each event can decode to is said
once, in `decode_cases`. -/

namespace Sys2Proof.Machine

/-! ### What a step decodes -/

/-- A unit asked for by name decodes to itself, so it decodes in itself too. -/
theorem decodeUnit_eq_ok {call i : Instr} (h : decodeUnit call = .ok i) : call = i ∧ decodeUnit i = .ok i := by
  cases call with
  | groups | hdrlen | resolve | crcStep | crc16 | crcVerify | unpack | pack | build | buildRef =>
    cases h
    exact ⟨rfl, rfl⟩
  | _ => cases h

/-- Everything an event can decode to: each kind of event has its own operations (R86, R87). -/
theorem decode_cases {st : ParserState} {ev : Event} {i : Instr} (h : decode st ev = .ok i) :
    (∃ b, ev = .byte b ∧ i = decodeByte st b) ∨ (∃ bs, ev = .bytes bs ∧ i = .feedN bs) ∨
      (ev = .idle ∧ i = .idle) ∨ (ev = .reset ∧ i = .reset) ∨ (ev = .unit i ∧ decodeUnit i = .ok i) := by
  cases ev with
  | byte b =>
    cases h
    exact .inl ⟨b, rfl, rfl⟩
  | bytes bs =>
    cases h
    exact .inr (.inl ⟨bs, rfl, rfl⟩)
  | idle =>
    cases h
    exact .inr (.inr (.inl ⟨rfl, rfl⟩))
  | reset =>
    cases h
    exact .inr (.inr (.inr (.inl ⟨rfl, rfl⟩)))
  | unit call =>
    obtain ⟨rfl, hi⟩ := decodeUnit_eq_ok h
    exact .inr (.inr (.inr (.inr ⟨rfl, hi⟩)))

/-- The row selected by a byte is well formed, is selected in the state it was read in, and has that byte as its event
(R86). -/
theorem decodeByte_spec (st : ParserState) (b : Byte) :
    (decodeByte st b).wf = true ∧ (decodeByte st b).selectingState = some st ∧
      encode (decodeByte st b) = some (.byte b) := by
  cases st with
  | awaitingSync =>
    by_cases hb : b = Config.sync
    · subst hb
      decide
    · simp [decodeByte, hb, Instr.wf, Instr.selectingState, encode]
  | awaitingGroupSelector | awaitingFieldSelectors | awaitingPayloadAndChecksum => exact ⟨rfl, rfl, rfl⟩

/-- A function unit is named by its own event, in every parser state (R87). -/
theorem encode_of_decodeUnit {i : Instr} (h : decodeUnit i = .ok i) :
    encode i = some (.unit i) ∧ i.selectingState = none := by
  cases i with
  | groups | hdrlen | resolve | crcStep | crc16 | crcVerify | unpack | pack | build | buildRef => exact ⟨rfl, rfl⟩
  | _ => cases h

/-- What an event decodes to encodes back to the event, and a row that a parser state selects is decoded in it only. -/
theorem encode_of_decode {st : ParserState} {ev : Event} {i : Instr} (h : decode st ev = .ok i) :
    encode i = some ev ∧ ∀ p, i.selectingState = some p → st = p := by
  obtain ⟨b, rfl, rfl⟩ | ⟨bs, rfl, rfl⟩ | ⟨rfl, rfl⟩ | ⟨rfl, rfl⟩ | ⟨rfl, hu⟩ := decode_cases h
  · obtain ⟨-, hsel, henc⟩ := decodeByte_spec st b
    exact ⟨henc, fun p hp => Option.some.inj (hsel.symm.trans hp)⟩
  · exact ⟨rfl, fun _ hp => nomatch hp⟩
  · exact ⟨rfl, fun _ hp => nomatch hp⟩
  · exact ⟨rfl, fun _ hp => nomatch hp⟩
  · obtain ⟨henc, hsel⟩ := encode_of_decodeUnit hu
    exact ⟨henc, fun p hp => nomatch hsel.symm.trans hp⟩

/-- With no event waiting the step is `IDLE` (R111). -/
theorem step_of_no_input {s : State} (h : s.input = []) : step s = exec .idle s := by
  have ht : takeEvent s = (.idle, s) := by simp [takeEvent, h]
  simp [step, ht, decode]

/-- An event that names no operation is refused. -/
theorem step_of_decode_error {s : State} {ev : Event} {rest : List Event} {e : DecodeError}
    (hi : s.input = ev :: rest) (hd : decode s.state ev = .error e) : step s = .refused (.noSuchOperation e) := by
  have ht : takeEvent s = (ev, { s with input := rest }) := by simp [takeEvent, hi]
  simp [step, ht, hd]

end Sys2Proof.Machine

namespace Sys2Proof.Proofs

open Sys2Proof Sys2Proof.Machine

/-- Settles O7: the round trip of each instruction is its law in `Laws.DecodeOfEncode`. -/
theorem decodeOfEncodeGivesTheInstruction : Obligations.DecodeOfEncodeGivesTheInstruction := by
  intro i ev st hwf henc hsel
  have hround : Laws.DecodeOfEncode.Statement i := by
    cases i with
    | feedSyncHit => exact Laws.DecodeOfEncode.feedSyncHit
    | feedSyncMiss b => exact Laws.DecodeOfEncode.feedSyncMiss b
    | feedGsel b => exact Laws.DecodeOfEncode.feedGsel b
    | feedFsel b => exact Laws.DecodeOfEncode.feedFsel b
    | feedPay b => exact Laws.DecodeOfEncode.feedPay b
    | hdrCheck => exact Laws.DecodeOfEncode.hdrCheck
    | frameCheck => exact Laws.DecodeOfEncode.frameCheck
    | feedN bytes => exact Laws.DecodeOfEncode.feedN bytes
    | idle => exact Laws.DecodeOfEncode.idle
    | reset => exact Laws.DecodeOfEncode.reset
    | groups sel => exact Laws.DecodeOfEncode.groups sel
    | hdrlen sel => exact Laws.DecodeOfEncode.hdrlen sel
    | resolve gs fb => exact Laws.DecodeOfEncode.resolve gs fb
    | crcStep acc b => exact Laws.DecodeOfEncode.crcStep acc b
    | crc16 bytes => exact Laws.DecodeOfEncode.crc16 bytes
    | crcVerify bytes rx => exact Laws.DecodeOfEncode.crcVerify bytes rx
    | unpack payload => exact Laws.DecodeOfEncode.unpack payload
    | pack record => exact Laws.DecodeOfEncode.pack record
    | build sel words payload => exact Laws.DecodeOfEncode.build sel words payload
    | buildRef record => exact Laws.DecodeOfEncode.buildRef record
  exact hround hwf ev st henc hsel

/-- Settles O8: the two checks have no event, so nothing decodes to them; a byte decodes to its row. -/
theorem encodeOfDecodeGivesTheEvent : Obligations.EncodeOfDecodeGivesTheEvent := by
  refine ⟨fun st ev i h => ?_, fun st b => ?_⟩
  · obtain ⟨henc, hsel⟩ := encode_of_decode h
    refine ⟨henc, hsel, ?_, ?_⟩
    · rintro rfl
      cases henc
    · rintro rfl
      cases henc
  · obtain ⟨hwf, hsel, -⟩ := decodeByte_spec st b
    exact ⟨_, rfl, hwf, hsel⟩

/-- Settles O5: the three ways a step can begin. -/
theorem stepRunsTheDecodedInstruction : Obligations.StepRunsTheDecodedInstruction :=
  ⟨fun _ _ _ _ => step_of_decode, fun _ => step_of_no_input, fun _ _ _ _ => step_of_decode_error⟩

/-- Settles O6: six bytes written out, decoded. -/
theorem writtenBytesDecode : Obligations.WrittenBytesDecode :=
  ⟨by decide, by decide, by decide, by decide, by decide, by decide⟩

end Sys2Proof.Proofs
end

section
/-! PROOFS. The invariant between steps (10_state.md R24, R25): O2, O3, O4, O9 and O12. `State.Inv` is read row by row
through one `iff` for each parser state; one `FEED` keeps it, and every step does no more than some `FEED`s do. -/

namespace Sys2Proof.Machine

variable {s t : State}

/-! ### The invariant, row by row -/

theorem inv_iff_of_awaitingSync (hs : s.state = .awaitingSync) :
    s.Inv ↔ s.buf = [] ∧ s.recValid = s.record.isSome := by
  simp [State.Inv, hs]

theorem inv_iff_of_awaitingGroupSelector (hs : s.state = .awaitingGroupSelector) :
    s.Inv ↔ s.buf = [Config.sync] ∧ s.recValid = s.record.isSome := by
  simp [State.Inv, hs]

theorem inv_iff_of_awaitingFieldSelectors (hs : s.state = .awaitingFieldSelectors) :
    s.Inv ↔ (s.headerHeld ∧ 2 ≤ s.buf.length ∧ s.buf.length < s.hdrLen) ∧ s.recValid = s.record.isSome := by
  simp only [State.Inv, hs, forall_const, reduceCtorEq, false_implies, true_and]

theorem inv_iff_of_awaitingPayloadAndChecksum (hs : s.state = .awaitingPayloadAndChecksum) :
    s.Inv ↔ (s.headerHeld ∧ s.hdrLen ≤ s.buf.length ∧ s.buf.length < s.hdrLen + 146 ∧ s.payLen = 144 ∧
      resolve s.groups (slice s.buf 2 s.hdrLen) = some 144) ∧ s.recValid = s.record.isSome := by
  simp only [State.Inv, hs, forall_const, reduceCtorEq, false_implies, true_and]

theorem State.Inv.recValid (h : s.Inv) : s.recValid = s.record.isSome := by
  obtain ⟨-, -, -, -, hrec⟩ := h
  exact hrec

/-- The outputs are no part of the invariant. -/
theorem inv_emit (o : StepOut) : (s.emit o).Inv ↔ s.Inv := Iff.rfl

/-- An append writes no byte that the buffer holds, so the header in progress stays. -/
theorem State.headerHeld.appendByte (h : s.headerHeld) (b : Byte) : (s.appendByte b).headerHeld := by
  obtain ⟨hsync, hsel, hrest⟩ := h
  have hkeep {i : Nat} {x : Byte} (hx : s.buf[i]? = some x) : (s.buf ++ [b])[i]? = some x := by
    rw [List.getElem?_append_left (List.getElem?_eq_some_iff.mp hx).1, hx]
  exact ⟨hkeep hsync, hkeep hsel, hrest⟩

/-- A selector that names a group begins a header. -/
theorem headerHeld_afterSelector {b : Byte} (hbuf : s.buf = [Config.sync]) (hb : 1 ≤ (groupsOf b).length) :
    (afterSelector b s).headerHeld := by
  refine ⟨?_, ?_, rfl, hb, rfl⟩ <;> simp [hbuf]

/-- A header that resolves to the supported length names a group: no group adds no byte. -/
theorem groups_nonempty_of_resolve {gs : List Nat} {fb : List Byte} (h : resolve gs fb = some 144) :
    1 ≤ gs.length := by
  cases gs with
  | nil => simp [resolve, totalWidth] at h
  | cons => simp

/-! ### One byte keeps it -/

theorem checkHeader_keeps_inv (hheld : 1 ≤ s.groups.length → s.headerHeld) (hrec : s.recValid = s.record.isSome)
    (h : checkHeader s = .next t) : t.Inv := by
  obtain ⟨hl, hres, hr⟩ | ⟨-, -, hr⟩ | ⟨-, -, hr⟩ | ⟨-, hr⟩ := checkHeader_cases h
  · cases hr
    refine (inv_iff_of_awaitingPayloadAndChecksum rfl).mpr ⟨⟨hheld (groups_nonempty_of_resolve hres), ?_⟩, hrec⟩
    exact ⟨hl.ge, by simp [hl], rfl, hres⟩
  · cases hr
    exact (inv_iff_of_awaitingSync rfl).mpr ⟨rfl, hrec⟩
  · cases hr
  · cases hr

theorem checkFrame_keeps_inv (hrec : s.recValid = s.record.isSome) (h : checkFrame s = .next t) : t.Inv := by
  obtain ⟨r, -, rfl⟩ | rfl := checkFrame_next h
  · exact (inv_iff_of_awaitingSync rfl).mpr ⟨rfl, rfl⟩
  · exact (inv_iff_of_awaitingSync rfl).mpr ⟨rfl, hrec⟩

/-- Every edge of the state diagram keeps the invariant (R24, R101). -/
theorem feed_keeps_inv {b : Byte} (hinv : s.Inv) (h : feed b s = .next t) : t.Inv := by
  have hrec := hinv.recValid
  obtain ⟨-, -, rfl⟩ | ⟨-, -, rfl⟩ | ⟨hs, hl, rfl⟩ | ⟨hs, -, hc⟩ | ⟨hs, hl, rfl⟩ | ⟨hs, -, hc⟩ | ⟨hs, hl, rfl⟩ |
    ⟨-, -, hc⟩ := feed_next h
  · exact (inv_iff_of_awaitingGroupSelector rfl).mpr ⟨rfl, hrec⟩
  · exact (inv_iff_of_awaitingSync rfl).mpr ⟨rfl, hrec⟩
  · obtain ⟨hbuf, -⟩ := (inv_iff_of_awaitingGroupSelector hs).mp hinv
    have hb : 1 ≤ (groupsOf b).length := List.length_pos_iff.mpr (by simpa [hbuf, hdrLenOf] using hl)
    refine (inv_iff_of_awaitingFieldSelectors rfl).mpr ⟨⟨headerHeld_afterSelector hbuf hb, ?_⟩, hrec⟩
    simp [hbuf]
    omega
  · obtain ⟨hbuf, -⟩ := (inv_iff_of_awaitingGroupSelector hs).mp hinv
    exact checkHeader_keeps_inv (s := afterSelector b s) (headerHeld_afterSelector hbuf) hrec hc
  · obtain ⟨⟨hheld, h2, hlt⟩, -⟩ := (inv_iff_of_awaitingFieldSelectors hs).mp hinv
    refine (inv_iff_of_awaitingFieldSelectors (s := s.appendByte b) hs).mpr ⟨⟨hheld.appendByte b, ?_⟩, hrec⟩
    simp
    omega
  · obtain ⟨⟨hheld, -⟩, -⟩ := (inv_iff_of_awaitingFieldSelectors hs).mp hinv
    exact checkHeader_keeps_inv (s := s.appendByte b) (fun _ => hheld.appendByte b) hrec hc
  · obtain ⟨⟨hheld, hge, hlt, hpay, hres⟩, -⟩ := (inv_iff_of_awaitingPayloadAndChecksum hs).mp hinv
    have hslice : slice (s.buf ++ [b]) 2 s.hdrLen = slice s.buf 2 s.hdrLen := by
      have hle : s.hdrLen - 2 ≤ (s.buf.drop 2).length := by simp; omega
      rw [slice, slice, List.drop_append_of_le_length (by omega), List.take_append_of_le_length hle]
    refine (inv_iff_of_awaitingPayloadAndChecksum (s := s.appendByte b) hs).mpr
      ⟨⟨hheld.appendByte b, ?_, ?_, hpay, ?_⟩, hrec⟩
    · simp
      omega
    · simp
      omega
    · simpa [hslice] using hres
  · exact checkFrame_keeps_inv (s := s.appendByte b) hrec hc

/-- `FEEDN` keeps what every `FEED` keeps. -/
theorem feedAll_keeps_inv {bs : List Byte} (hinv : s.Inv) (h : feedAll bs s = .next t) : t.Inv := by
  induction bs generalizing s t with
  | nil =>
    cases h
    exact hinv
  | cons b rest ih =>
    obtain ⟨u, v, hu, hv, rfl⟩ := feedAll_cons_next.mp h
    exact (inv_emit _).mpr (ih (feed_keeps_inv hinv hu) hv)

theorem inv_reset : State.reset.Inv := (inv_iff_of_awaitingSync rfl).mpr ⟨rfl, rfl⟩

/-- What a step that goes on has run: the instruction of the event it took (R59, R87). -/
theorem step_eq_next (h : step s = .next t) :
    ∃ i, decode (takeEvent s).2.state (takeEvent s).1 = .ok i ∧ exec i (takeEvent s).2 = .next t := by
  unfold step at h
  split at h
  · next i hi => exact ⟨i, hi, h⟩
  · cases h

/-- The input is no part of the invariant, so taking an event keeps it. -/
theorem takeEvent_keeps_inv (hinv : s.Inv) : (takeEvent s).2.Inv := by
  unfold takeEvent
  split <;> exact hinv

theorem step_keeps_inv (hinv : s.Inv) (h : step s = .next t) : t.Inv := by
  obtain ⟨i, hdec, hexec⟩ := step_eq_next h
  have htaken := takeEvent_keeps_inv hinv
  obtain ⟨b, -, rfl⟩ | ⟨bs, -, rfl⟩ | ⟨-, rfl⟩ | ⟨-, rfl⟩ | ⟨-, hu⟩ := decode_cases hdec
  · exact feed_keeps_inv htaken ((feed_eq_exec b _).trans hexec)
  · exact feedAll_keeps_inv htaken hexec
  · cases hexec
    exact htaken
  · cases hexec
    exact inv_reset
  · obtain ⟨v, rfl⟩ := exec_unit_next hu hexec
    exact htaken

/-- The row of the state gives the bound: a header has at most 16 bytes, and 146 bytes follow it (R25). -/
theorem buf_length_lt_of_inv (hinv : s.Inv) : s.buf.length < 162 := by
  cases hs : s.state with
  | awaitingSync =>
    obtain ⟨hbuf, -⟩ := (inv_iff_of_awaitingSync hs).mp hinv
    simp [hbuf]
  | awaitingGroupSelector =>
    obtain ⟨hbuf, -⟩ := (inv_iff_of_awaitingGroupSelector hs).mp hinv
    simp [hbuf]
  | awaitingFieldSelectors =>
    obtain ⟨⟨⟨-, -, hgroups, -, hhdr⟩, -, hlt⟩, -⟩ := (inv_iff_of_awaitingFieldSelectors hs).mp hinv
    have hseven := groupsOf_length_le s.gsel
    rw [hgroups] at hhdr
    omega
  | awaitingPayloadAndChecksum =>
    obtain ⟨⟨⟨-, -, hgroups, -, hhdr⟩, -, hlt, -⟩, -⟩ := (inv_iff_of_awaitingPayloadAndChecksum hs).mp hinv
    have hseven := groupsOf_length_le s.gsel
    rw [hgroups] at hhdr
    omega

/-! ### The group selector -/

theorem execFeedGsel_eq (b : Byte) (hs : s.state = .awaitingGroupSelector) :
    execFeedGsel b s =
      if s.buf.length + 1 = hdrLenOf b then checkHeader (afterSelector b s)
      else .next ((afterSelector b s).emit (.ofLabel .gsel)) := by
  by_cases hl : s.buf.length + 1 = 2 + 2 * (groupsOf b).length <;> simp [execFeedGsel, hs, hdrLenOf, hl]

/-- A selector names no group exactly when its bits 0 to 6 are 0 (R72, decision D7). -/
theorem groupsOf_eq_nil_iff {b : Byte} : groupsOf b = [] ↔ b &&& 0x7F#8 = 0#8 := by
  have hmod : (b &&& 0x7F#8).toNat = b.toNat % 2 ^ 7 := Nat.and_two_pow_sub_one_eq_mod b.toNat 7
  have hmask (i : Nat) : (b &&& 0x7F#8).getLsbD i = (decide (i < 7) && b.getLsbD i) := by
    rw [BitVec.getLsbD, hmod, Nat.testBit_mod_two_pow]
    rfl
  constructor
  · intro h
    apply BitVec.eq_of_getLsbD_eq
    intro i _
    have hi : i ∉ groupsOf b := by simp [h]
    simpa [hmask, mem_groupsOf] using hi
  · intro h
    apply List.eq_nil_iff_forall_not_mem.mpr
    intro i hi
    obtain ⟨h7, hbit⟩ := mem_groupsOf.mp hi
    simpa [h, h7, hbit] using hmask i

end Sys2Proof.Machine

namespace Sys2Proof.Proofs

open Sys2Proof Sys2Proof.Machine

/-- Settles O3: the instruction a step runs is a `FEED`, some `FEED`s, or writes nothing the invariant speaks of. -/
theorem stepKeepsTheInvariant : Obligations.StepKeepsTheInvariant :=
  fun _ _ => step_keeps_inv

/-- Settles O2: in the row of `AwaitingSync` the buffer is empty, and no record is held. -/
theorem resetSatisfiesTheInvariant : Obligations.ResetSatisfiesTheInvariant := inv_reset

/-- Settles O4, from `buf_length_lt_of_inv`. -/
theorem bufferNeverOverflows : Obligations.BufferNeverOverflows :=
  fun _ => buf_length_lt_of_inv

/-- Settles O12: a selector that names no group completes the header at once, and no group resolves to 0 bytes. -/
theorem gselStoresTheSelectorOrRejectsIt : Obligations.GselStoresTheSelectorOrRejectsIt := by
  refine ⟨fun s b hinv hs hb => ?_, fun s b hinv hs hb => ?_⟩
  · obtain ⟨hbuf, -⟩ := (inv_iff_of_awaitingGroupSelector hs).mp hinv
    have hl : s.buf.length + 1 ≠ hdrLenOf b := by
      simpa [hbuf, hdrLenOf, groupsOf_eq_nil_iff] using hb
    refine (execFeedGsel_eq b hs).trans ?_
    rw [if_neg hl]
    simp [afterSelector, State.appendByte, State.takeSelector, State.enter, State.emit, hbuf, StepOut.ofLabel]
    rfl
  · obtain ⟨hbuf, -⟩ := (inv_iff_of_awaitingGroupSelector hs).mp hinv
    have hnil := groupsOf_eq_nil_iff.mpr hb
    have hl : s.buf.length + 1 = hdrLenOf b := by simp [hbuf, hdrLenOf, hnil]
    have hlen : (afterSelector b s).buf.length = (afterSelector b s).hdrLen := by simpa [hdrLenOf] using hl
    have hres : resolve (afterSelector b s).groups
        (slice (afterSelector b s).buf 2 (afterSelector b s).hdrLen) = some 0 := by
      simp [hnil, hbuf, slice]
      decide
    refine (execFeedGsel_eq b hs).trans ?_
    rw [if_pos hl, checkHeader_eq_afterHdrCheck hlen hres, Spec.afterHdrCheck, hres]
    simp [afterSelector, State.appendByte, State.takeSelector, State.enter, hnil]

/-- Settles O9: one `FEED` row for each parser state, its label read off the row's own statement. -/
theorem everyByteTakesItsTableRow : Obligations.EveryByteTakesItsTableRow := by
  intro s b hinv
  suffices h : ∃ t, exec (decodeByte s.state b) s = .next t ∧ t.out.labels = [Spec.expectedLabel s b] by
    obtain ⟨t, hexec, hlabel⟩ := h
    exact ⟨t, hexec, hlabel, feed_keeps_inv hinv ((feed_eq_exec b s).trans hexec)⟩
  cases hs : s.state with
  | awaitingSync =>
    by_cases hb : b = 0xFA#8
    · subst hb
      exact ⟨_, syncHitTakesTheSyncByte s hs, by simp [Spec.expectedLabel, hs]⟩
    · have hdec : decodeByte .awaitingSync b = .feedSyncMiss b := if_neg hb
      exact ⟨_, hdec ▸ syncMissCountsAHeaderError s b hs hb, by simp [Spec.expectedLabel, hs, hb]⟩
  | awaitingGroupSelector =>
    obtain ⟨hsome, hnone⟩ := gselStoresTheSelectorOrRejectsIt
    by_cases hb : b &&& 0x7F#8 = 0#8
    · exact ⟨_, hnone s b hinv hs hb, by simp [Spec.expectedLabel, hs, groupsOf_eq_nil_iff.mpr hb]⟩
    · have hpos : 0 < (groupsOf b).length := List.length_pos_iff.mpr fun h => hb (groupsOf_eq_nil_iff.mp h)
      exact ⟨_, hsome s b hinv hs hb, by simp [Spec.expectedLabel, hs, hpos]⟩
  | awaitingFieldSelectors =>
    refine ⟨_, fselAppendsAndChecksTheHeader s b hinv hs, ?_⟩
    obtain ⟨⟨-, -, hlt⟩, -⟩ := (inv_iff_of_awaitingFieldSelectors hs).mp hinv
    by_cases hl : s.buf.length + 1 = s.hdrLen
    · have hnlt : ¬ s.buf.length + 1 < s.hdrLen := by omega
      simp only [Spec.expectedLabel, hs, if_pos hl, if_neg hnlt, Spec.afterHdrCheck]
      split <;> rfl
    · have hnlt : s.buf.length + 1 < s.hdrLen := by omega
      simp only [Spec.expectedLabel, hs, if_neg hl, if_pos hnlt]
  | awaitingPayloadAndChecksum =>
    refine ⟨_, payAppendsAndChecksTheFrame s b hinv hs, ?_⟩
    obtain ⟨⟨-, -, hlt, hpay, -⟩, -⟩ := (inv_iff_of_awaitingPayloadAndChecksum hs).mp hinv
    rw [hpay]
    by_cases hl : s.buf.length + 1 = s.hdrLen + 144 + 2
    · have hnlt : ¬ s.buf.length + 1 < s.hdrLen + 146 := by omega
      simp only [Spec.expectedLabel, hs, if_pos hl, if_neg hnlt, Spec.afterFrameCheck]
      split <;> rfl
    · have hnlt : s.buf.length + 1 < s.hdrLen + 146 := by omega
      simp only [Spec.expectedLabel, hs, if_neg hl, if_pos hnlt]

end Sys2Proof.Proofs
end

section
/-! PROOFS. What one byte does to the frame attempt and to the record (10_state.md R22, R23, R32, 60_exceptions.md
R189): O18, O45 and O49. A `FEED` step goes on with the attempt, storing its byte, or ends it; `feed_attempt_cases`
says this once. -/

namespace Sys2Proof.Machine

variable {s t : State}

/-! ### The frame attempt goes on or ends -/

/-- The step goes on with the attempt: it stores `b` behind the bytes held (there are none in `AwaitingSync`), keeps
the status and takes a path that is no error and no delivery. -/
structure GoesOn (b : Byte) (s t : State) : Prop where
  state  : t.state ≠ .awaitingSync
  buf    : s.state ≠ .awaitingSync → t.buf = s.buf ++ [b]
  status : SameStatus s t
  input  : t.input = s.input
  label  : ∃ l, l ≠ .ok ∧ l.errorClass = none ∧ t.out.labels = [l]

/-- The step ends the attempt: no byte is held and the scanner hunts for the next frame (R108, R183, R184). -/
structure EndsAttempt (s t : State) : Prop where
  state : t.state = .awaitingSync
  buf   : t.buf = []
  input : t.input = s.input

/-- The header check goes on with the attempt that the step has stored `b` for, or ends it. -/
theorem checkHeader_attempt_cases {b : Byte} {u : State} (hbuf : u.buf = s.buf ++ [b]) (hu : SameStatus s u)
    (hin : u.input = s.input) (h : checkHeader u = .next t) : GoesOn b s t ∨ EndsAttempt s t := by
  obtain rfl | rfl := checkHeader_next h
  · exact .inl ⟨nofun, fun _ => hbuf, ⟨hu.ok, hu.hdrErr, hu.crcErr, hu.record, hu.recValid⟩, hin, .hdrOk, nofun, rfl,
      rfl⟩
  · exact .inr ⟨rfl, rfl, hin⟩

theorem checkFrame_endsAttempt (h : checkFrame s = .next t) : EndsAttempt s t := by
  obtain ⟨r, -, rfl⟩ | rfl := checkFrame_next h
  · exact ⟨rfl, rfl, rfl⟩
  · exact ⟨rfl, rfl, rfl⟩

theorem feed_attempt_cases {b : Byte} (h : feed b s = .next t) : GoesOn b s t ∨ EndsAttempt s t := by
  obtain ⟨hs, -, rfl⟩ | ⟨-, -, rfl⟩ | ⟨-, -, rfl⟩ | ⟨-, -, hc⟩ | ⟨hs, -, rfl⟩ | ⟨-, -, hc⟩ | ⟨hs, -, rfl⟩ |
    ⟨-, -, hc⟩ := feed_next h
  · exact .inl ⟨nofun, fun hne => absurd hs hne, ⟨rfl, rfl, rfl, rfl, rfl⟩, rfl, .sync, nofun, rfl, rfl⟩
  · exact .inr ⟨rfl, rfl, rfl⟩
  · exact .inl ⟨nofun, fun _ => rfl, ⟨rfl, rfl, rfl, rfl, rfl⟩, rfl, .gsel, nofun, rfl, rfl⟩
  · exact checkHeader_attempt_cases rfl (sameStatus_afterSelector b s) rfl hc
  · exact .inl ⟨by simp [hs], fun _ => rfl, ⟨rfl, rfl, rfl, rfl, rfl⟩, rfl, .fsel, nofun, rfl, rfl⟩
  · exact checkHeader_attempt_cases rfl (sameStatus_appendByte b s) rfl hc
  · exact .inl ⟨by simp [hs], fun _ => rfl, ⟨rfl, rfl, rfl, rfl, rfl⟩, rfl, .pay, nofun, rfl, rfl⟩
  · obtain ⟨hstate, hbuf, hin⟩ := checkFrame_endsAttempt hc
    exact .inr ⟨hstate, hbuf, hin⟩

theorem feed_input {b : Byte} (h : feed b s = .next t) : t.input = s.input := by
  obtain hgoes | hends := feed_attempt_cases h
  · exact hgoes.input
  · exact hends.input

/-- A step labelled with an error or a delivery has ended the attempt. -/
theorem endsAttempt_of_label {b : Byte} {l : Label} (h : feed b s = .next t) (hl : t.out.labels = [l])
    (hend : l.errorClass ≠ none ∨ l = .ok) : EndsAttempt s t := by
  obtain hgoes | hends := feed_attempt_cases h
  · obtain ⟨l', hok, hnone, hlabels⟩ := hgoes.label
    obtain rfl : l = l' := List.singleton_inj.mp (hl.symm.trans hlabels)
    simp [hok, hnone] at hend
  · exact hends

/-! ### The appending rows -/

/-- The row that takes `b` in a state other than `AwaitingSync`, where every byte is stored (R104, R105, R107). -/
theorem feed_of_appending_row {i : Instr} {b : Byte} (hi : i = .feedGsel b ∨ i = .feedFsel b ∨ i = .feedPay b)
    (h : exec i s = .next t) : s.state ≠ .awaitingSync ∧ feed b s = .next t := by
  obtain rfl | rfl | rfl := hi
  · have hs : s.state = .awaitingGroupSelector := (guard_eq_next.mp h).1
    exact ⟨by simp [hs], by rw [feed_eq_exec, hs]; exact h⟩
  · have hs : s.state = .awaitingFieldSelectors := (guard_eq_next.mp h).1
    exact ⟨by simp [hs], by rw [feed_eq_exec, hs]; exact h⟩
  · have hs : s.state = .awaitingPayloadAndChecksum := (guard_eq_next.mp h).1
    exact ⟨by simp [hs], by rw [feed_eq_exec, hs]; exact h⟩

/-- The read of a byte sees the buffer only. -/
theorem readByte_of_buf_eq_append {b : Byte} (hbuf : t.buf = s.buf ++ [b]) (a : Nat) :
    t.readByte a = (s.appendByte b).readByte a := by
  simp [State.readByte, hbuf]

/-! ### The record -/

/-- The record of `t` is the last payload delivered on the way from `s`, and that of `s` when none was (R32, R211). -/
structure RecordFollowsEvents (s t : State) : Prop where
  kept      : t.out.events = [] → t.record = s.record ∧ t.recValid = s.recValid
  delivered : ∀ p, t.out.events.getLast? = some (.frameComplete p) →
    ∃ r, unpack p = .ok r ∧ t.record = some r ∧ t.recValid = true

/-- A step with no event keeps the record it found. -/
theorem recordFollowsEvents_of_no_event (hout : t.out.events = []) (hrec : t.record = s.record)
    (hvalid : t.recValid = s.recValid) : RecordFollowsEvents s t :=
  ⟨fun _ => ⟨hrec, hvalid⟩, fun p hp => by simp [hout] at hp⟩

theorem checkHeader_recordFollowsEvents (h : checkHeader s = .next t) : RecordFollowsEvents s t := by
  obtain rfl | rfl := checkHeader_next h
  · exact recordFollowsEvents_of_no_event rfl rfl rfl
  · exact recordFollowsEvents_of_no_event rfl rfl rfl

theorem checkFrame_recordFollowsEvents (h : checkFrame s = .next t) : RecordFollowsEvents s t := by
  obtain ⟨-, -, r, hu, hr⟩ | ⟨-, -, hr⟩ | ⟨-, -, hr⟩ | ⟨-, hr⟩ := checkFrame_cases h
  · cases hr
    refine ⟨nofun, fun p hp => ?_⟩
    cases hp
    exact ⟨r, hu, rfl, rfl⟩
  · cases hr
    exact recordFollowsEvents_of_no_event rfl rfl rfl
  · cases hr
  · cases hr

/-- Before a check a `FEED` step leaves the record alone. -/
theorem feed_recordFollowsEvents {b : Byte} (h : feed b s = .next t) : RecordFollowsEvents s t := by
  obtain ⟨-, -, rfl⟩ | ⟨-, -, rfl⟩ | ⟨-, -, rfl⟩ | ⟨-, -, hc⟩ | ⟨-, -, rfl⟩ | ⟨-, -, hc⟩ | ⟨-, -, rfl⟩ |
    ⟨-, -, hc⟩ := feed_next h
  · exact recordFollowsEvents_of_no_event rfl rfl rfl
  · exact recordFollowsEvents_of_no_event rfl rfl rfl
  · exact recordFollowsEvents_of_no_event rfl rfl rfl
  · obtain ⟨hkept, hdelivered⟩ := checkHeader_recordFollowsEvents hc
    exact ⟨hkept, hdelivered⟩
  · exact recordFollowsEvents_of_no_event rfl rfl rfl
  · obtain ⟨hkept, hdelivered⟩ := checkHeader_recordFollowsEvents hc
    exact ⟨hkept, hdelivered⟩
  · exact recordFollowsEvents_of_no_event rfl rfl rfl
  · obtain ⟨hkept, hdelivered⟩ := checkFrame_recordFollowsEvents hc
    exact ⟨hkept, hdelivered⟩

/-- One step after another: the events of the second come last, and when it has none the record is the first's. -/
theorem RecordFollowsEvents.append {u v : State} (hu : RecordFollowsEvents s u) (hv : RecordFollowsEvents u v) :
    RecordFollowsEvents s (v.emit (u.out.append v.out)) := by
  refine ⟨fun he => ?_, fun p hp => ?_⟩
  · obtain ⟨heu, hev⟩ := List.append_eq_nil_iff.mp he
    obtain ⟨hrec, hvalid⟩ := hv.kept hev
    obtain ⟨hrec', hvalid'⟩ := hu.kept heu
    exact ⟨hrec.trans hrec', hvalid.trans hvalid'⟩
  · have hlast : (u.out.events ++ v.out.events).getLast? = some (.frameComplete p) := hp
    by_cases hev : v.out.events = []
    · obtain ⟨hrec, hvalid⟩ := hv.kept hev
      obtain ⟨r, hr, hrec', hvalid'⟩ := hu.delivered p (by simpa [hev] using hlast)
      exact ⟨r, hr, hrec.trans hrec', hvalid.trans hvalid'⟩
    · rw [List.getLast?_append_of_ne_nil _ hev] at hlast
      exact hv.delivered p hlast

theorem feedAll_recordFollowsEvents {bs : List Byte} (h : feedAll bs s = .next t) : RecordFollowsEvents s t := by
  induction bs generalizing s t with
  | nil =>
    cases h
    exact recordFollowsEvents_of_no_event rfl rfl rfl
  | cons b rest ih =>
    obtain ⟨u, v, hu, hv, rfl⟩ := feedAll_cons_next.mp h
    exact (feed_recordFollowsEvents hu).append (ih hv)

theorem exec_recordFollowsEvents {i : Instr} (hi : i ≠ .reset) (h : exec i s = .next t) :
    RecordFollowsEvents s t := by
  cases i with
  | feedSyncHit | feedSyncMiss | feedGsel | feedFsel | feedPay =>
    obtain ⟨b, hb⟩ := feed_of_exec_next rfl h
    exact feed_recordFollowsEvents hb
  | hdrCheck => exact checkHeader_recordFollowsEvents h
  | frameCheck => exact checkFrame_recordFollowsEvents h
  | feedN bytes => exact feedAll_recordFollowsEvents h
  | idle =>
    cases h
    exact recordFollowsEvents_of_no_event rfl rfl rfl
  | reset => exact absurd rfl hi
  | groups | hdrlen | resolve | crcStep | crc16 | crcVerify | unpack | pack | build | buildRef =>
    obtain ⟨v, rfl⟩ := exec_unit_next rfl h
    exact recordFollowsEvents_of_no_event rfl rfl rfl

end Sys2Proof.Machine

namespace Sys2Proof.Proofs

open Sys2Proof Sys2Proof.Machine

/-- Settles O18: while the attempt goes on the buffer is that of an append; when it ends the buffer is empty. -/
theorem appendStoresOneByte : Obligations.AppendStoresOneByte := by
  intro s t i b hi h
  obtain ⟨hs, hfeed⟩ := feed_of_appending_row hi h
  refine ⟨feed_input hfeed, ?_⟩
  obtain hgoes | hends := feed_attempt_cases hfeed
  · have hread := readByte_of_buf_eq_append (hgoes.buf hs)
    refine ⟨fun _ => ?_, fun hst => absurd hst hgoes.state⟩
    refine ⟨?_, fun a ha => ?_, hgoes.status.ok, hgoes.status.hdrErr, hgoes.status.crcErr, hgoes.status.record,
      hgoes.status.recValid⟩
    · rw [hread, State.readByte_append_self]
    · rw [hread, State.readByte_append_other b ha]
  · exact ⟨fun hst => absurd hends.state hst, fun _ a => by simp [State.readByte, hends.buf]⟩

/-- Settles O45: the two forms of the outputs in `feed_out` fix the label, and an error or a delivery ends the
attempt. -/
theorem atMostOneErrorOrEvent : Obligations.AtMostOneErrorOrEvent := by
  intro s t b h
  have hfeed := (feed_eq_exec b s).trans h
  obtain ⟨l, hl, ho⟩ | ⟨p, -, -, ho⟩ := feed_out hfeed
  · have hlabels : t.out.labels = [l] := by simp [ho, StepOut.ofLabel]
    have hevents : t.out.events = [] := by simp [ho, StepOut.ofLabel]
    refine ⟨l, hlabels, by simp [hevents, hl], fun _ => hevents, by simp [hevents], fun hend => ?_⟩
    have hends := endsAttempt_of_label hfeed hlabels hend
    exact ⟨hends.state, hends.buf⟩
  · have hlabels : t.out.labels = [.ok] := by simp [ho]
    refine ⟨.ok, hlabels, by simp [ho], fun hne => absurd rfl hne, by simp [ho], fun hend => ?_⟩
    have hends := endsAttempt_of_label hfeed hlabels hend
    exact ⟨hends.state, hends.buf⟩

/-- Settles O49, by cases on the instruction; `FEEDN` by induction on its bytes. -/
theorem recordIsTheLastDeliveredPayload : Obligations.RecordIsTheLastDeliveredPayload := by
  intro i s t hi h
  obtain ⟨hkept, hdelivered⟩ := exec_recordFollowsEvents hi h
  exact ⟨hkept, hdelivered⟩

end Sys2Proof.Proofs
end

section
/-! PROOFS. `FEEDN` (41_framescanner.md R100, R110, R115, R116, R118): O19, O20, O48, O52, O53 and O54. A run neither
reads the outputs nor the waiting events, and a run over two slices is the run over the first and then over the second;
the laws of whole runs follow by induction on the bytes. -/

namespace Sys2Proof.Machine

variable {s t : State}

/-! ### What a run does not read -/

/-- Every row replaces the outputs, so what they were does not matter (R33). -/
theorem feed_emit (b : Byte) (s : State) (o : StepOut) : feed b (s.emit o) = feed b s := rfl

theorem feedAll_emit (bs : List Byte) (s : State) (o : StepOut) : feedAll bs (s.emit o) = feedAll bs s := by
  cases bs with
  | nil => rfl
  | cons b rest => simp only [feedAll, feed_emit]

/-- No label, no event and no value: the outputs of no byte. -/
@[simp] theorem StepOut.empty_append (o : StepOut) : StepOut.append {} o = o := rfl

theorem StepOut.append_assoc (o o' o'' : StepOut) : (o.append o').append o'' = o.append (o'.append o'') := by
  simp [StepOut.append]

@[simp] theorem State.emit_emit (s : State) (o o' : StepOut) : (s.emit o).emit o' = s.emit o' := rfl

@[simp] theorem State.emit_self (s : State) : s.emit s.out = s := rfl

/-- What two slices fed one after the other answer, when both go on (R115). -/
theorem feedAll_append_next {xs ys : List Byte} {s v : State} :
    feedAll (xs ++ ys) s = .next v ↔
      ∃ t u, feedAll xs s = .next t ∧ feedAll ys t = .next u ∧ v = u.emit (t.out.append u.out) := by
  induction xs generalizing s v with
  | nil => simp [feedAll_emit]
  | cons b rest ih =>
    constructor
    · intro h
      obtain ⟨t, w, ht, hw, rfl⟩ := feedAll_cons_next.mp h
      obtain ⟨t', u, ht', hu, rfl⟩ := ih.mp hw
      exact ⟨_, u, feedAll_cons_next.mpr ⟨t, t', ht, ht', rfl⟩, by rwa [feedAll_emit], by simp [StepOut.append_assoc]⟩
    · rintro ⟨w, u, hw, hu, rfl⟩
      obtain ⟨t, t', ht, ht', rfl⟩ := feedAll_cons_next.mp hw
      rw [feedAll_emit] at hu
      exact feedAll_cons_next.mpr ⟨t, _, ht, ih.mpr ⟨t', u, ht', hu, rfl⟩, by simp [StepOut.append_assoc]⟩

/-- A run evaluates no function unit. -/
theorem feedAll_value {bs : List Byte} (h : feedAll bs s = .next t) : t.out.value = none := by
  induction bs generalizing s t with
  | nil =>
    cases h
    rfl
  | cons b rest ih =>
    obtain ⟨u, v, -, hv, rfl⟩ := feedAll_cons_next.mp h
    exact ih (t := v) hv

theorem feedAll_append_out {bs : List Byte} (h : feedAll bs s = .next t) (o : StepOut) :
    o.append t.out = { labels := o.labels ++ t.out.labels, events := o.events ++ t.out.events, value := none } := by
  rw [StepOut.append, feedAll_value h]

/-- Two states that differ in the outputs only still do when one of them emits. -/
theorem State.sameButOut.emit (h : s.sameButOut t) (o : StepOut) : s.sameButOut (t.emit o) := by
  have ht : t = s.emit t.out := h
  rw [ht]
  rfl

/-! ### What a check and a `FEED` row answer, by case -/

theorem checkHeader_of_resolve_eq (hl : s.buf.length = s.hdrLen)
    (hres : resolve s.groups (slice s.buf 2 s.hdrLen) = some 144) :
    checkHeader s = .next (((s.takePayLen 144).enter .awaitingPayloadAndChecksum).emit (.ofLabel .hdrOk)) := by
  simp [checkHeader, hl, hres, Config.expectedPayloadLen]

theorem checkHeader_of_resolve_ne {n : Nat} (hl : s.buf.length = s.hdrLen)
    (hres : resolve s.groups (slice s.buf 2 s.hdrLen) = some n) (hn : n ≠ 144) :
    checkHeader s = .next (raiseHeaderError .badLength s) := by
  simp [checkHeader, hl, hres, hn, Config.expectedPayloadLen]

theorem feed_of_awaitingSync (b : Byte) (hs : s.state = .awaitingSync) :
    feed b s = .next (if b = Config.sync then
        ((s.clearBuf.appendByte Config.sync).enter .awaitingGroupSelector).emit (.ofLabel .sync)
      else raiseHeaderError .badSync s) := by
  by_cases hb : b = Config.sync
  · simp [feed, hs, hb, execFeedSyncHit]
  · simp [feed, hs, hb, execFeedSyncMiss]

theorem feed_of_awaitingGroupSelector (b : Byte) (hs : s.state = .awaitingGroupSelector) :
    feed b s = if s.buf.length + 1 = hdrLenOf b then checkHeader (afterSelector b s)
      else .next ((afterSelector b s).emit (.ofLabel .gsel)) := by
  rw [feed_eq_exec, hs]
  exact execFeedGsel_eq b hs

theorem feed_of_awaitingFieldSelectors (b : Byte) (hs : s.state = .awaitingFieldSelectors) :
    feed b s = if s.buf.length + 1 = s.hdrLen then checkHeader (s.appendByte b)
      else .next ((s.appendByte b).emit (.ofLabel .fsel)) := by
  rw [feed_eq_exec, hs]
  exact execFeedFsel_eq b hs

theorem feed_of_awaitingPayloadAndChecksum (b : Byte) (hs : s.state = .awaitingPayloadAndChecksum) :
    feed b s = if s.buf.length + 1 = s.hdrLen + s.payLen + 2 then checkFrame (s.appendByte b)
      else .next ((s.appendByte b).emit (.ofLabel .pay)) := by
  rw [feed_eq_exec, hs]
  exact execFeedPay_eq b hs

/-! ### Simulation -/

/-- When `r` goes on, so does `r'`, to a state that `R` relates to that of `r`. -/
def Simulates (R : State → State → Prop) (r r' : Result) : Prop := ∀ t, r = .next t → ∃ t', r' = .next t' ∧ R t t'

section
variable {R R' : State → State → Prop} {s' : State}

theorem simulates_next (h : R s s') : Simulates R (.next s) (.next s') := by
  rintro t ht
  cases ht
  exact ⟨s', rfl, h⟩

theorem Simulates.ite {p : Prop} [Decidable p] {a a' r r' : Result} (h : Simulates R a a') (h' : Simulates R r r') :
    Simulates R (if p then a else r) (if p then a' else r') := by
  by_cases hp : p
  · simpa [hp] using h
  · simpa [hp] using h'

theorem Simulates.andThen {r r' : Result} {f f' : State → Result} (h : Simulates R r r')
    (hf : ∀ t t', R t t' → Simulates R' (f t) (f' t')) : Simulates R' (andThen r f) (andThen r' f') := by
  intro v hv
  obtain ⟨t, ht, hft⟩ := andThen_eq_next.mp hv
  obtain ⟨t', ht', hR⟩ := h t ht
  obtain ⟨v', hv', hRv⟩ := hf t t' hR v hft
  exact ⟨v', andThen_eq_next.mpr ⟨t', ht', hv'⟩, hRv⟩

/-- The header check reads the buffer, the groups and `hdr_len` only (R106). -/
theorem checkHeader_simulates (hbuf : s'.buf = s.buf) (hgroups : s'.groups = s.groups) (hhdr : s'.hdrLen = s.hdrLen)
    (hok : R (((s.takePayLen 144).enter .awaitingPayloadAndChecksum).emit (.ofLabel .hdrOk))
      (((s'.takePayLen 144).enter .awaitingPayloadAndChecksum).emit (.ofLabel .hdrOk)))
    (herr : R (raiseHeaderError .badLength s) (raiseHeaderError .badLength s')) :
    Simulates R (checkHeader s) (checkHeader s') := by
  have hl' : s'.buf.length = s'.hdrLen ↔ s.buf.length = s.hdrLen := by rw [hbuf, hhdr]
  have hres' : resolve s'.groups (slice s'.buf 2 s'.hdrLen) = resolve s.groups (slice s.buf 2 s.hdrLen) := by
    rw [hbuf, hhdr, hgroups]
  intro t h
  obtain ⟨hl, hres, hr⟩ | ⟨hl, ⟨n, hres, hn⟩, hr⟩ | ⟨-, -, hr⟩ | ⟨-, hr⟩ := checkHeader_cases h
  · cases hr
    exact ⟨_, checkHeader_of_resolve_eq (hl'.mpr hl) (hres'.trans hres), hok⟩
  · cases hr
    exact ⟨_, checkHeader_of_resolve_ne (hl'.mpr hl) (hres'.trans hres) hn, herr⟩
  · cases hr
  · cases hr

/-- A relation that every `FEED` keeps, between states with the same outputs. -/
structure IsSimulation (R : State → State → Prop) : Prop where
  feed : ∀ {s s'} (b : Byte), R s s' → Simulates R (feed b s) (feed b s')
  out  : ∀ {s s'}, R s s' → s'.out = s.out
  emit : ∀ {s s'} (o : StepOut), R s s' → R (s.emit o) (s'.emit o)

/-- `FEEDN` keeps what every `FEED` keeps. -/
theorem IsSimulation.feedAll_simulates (hR : IsSimulation R) (bs : List Byte) (h : R s s') :
    Simulates R (feedAll bs s) (feedAll bs s') := by
  induction bs generalizing s s' with
  | nil => exact simulates_next (hR.emit {} h)
  | cons b rest ih =>
    refine (hR.feed b h).andThen fun t t' ht => (ih ht).andThen fun u u' hu => simulates_next ?_
    rw [hR.out ht, hR.out hu]
    exact hR.emit _ hu

end

/-! ### One call and separate steps -/

/-- `t` is `s` with `evs` waiting ahead of its events. -/
def DeliveredTo (evs : List Event) (s t : State) : Prop := t = s.deliver evs

theorem checkFrame_deliver (evs : List Event) (s : State) :
    Simulates (DeliveredTo evs) (checkFrame s) (checkFrame (s.deliver evs)) := by
  intro t h
  obtain ⟨hl, hv, r, hu, hr⟩ | ⟨hl, hv, hr⟩ | ⟨-, -, hr⟩ | ⟨-, hr⟩ := checkFrame_cases h
  · cases hr
    exact ⟨completeFrame (slice s.buf s.hdrLen (s.hdrLen + s.payLen)) r (s.deliver evs),
      by simp [checkFrame, hl, hv, hu, Config.checksumLen], rfl⟩
  · cases hr
    exact ⟨raiseChecksumError (s.deliver evs), by simp [checkFrame, hl, hv, Config.checksumLen], rfl⟩
  · cases hr
  · cases hr

/-- The events that wait are not read by a `FEED`, and stay. -/
theorem deliveredTo_isSimulation (evs : List Event) : IsSimulation (DeliveredTo evs) where
  feed := by
    rintro s - b rfl
    cases hs : s.state with
    | awaitingSync =>
      rw [feed_of_awaitingSync b hs, feed_of_awaitingSync (s := s.deliver evs) b hs]
      refine simulates_next ?_
      split <;> rfl
    | awaitingGroupSelector =>
      rw [feed_of_awaitingGroupSelector b hs, feed_of_awaitingGroupSelector (s := s.deliver evs) b hs]
      refine Simulates.ite ?_ (simulates_next rfl)
      exact checkHeader_simulates (s := afterSelector b s) rfl rfl rfl rfl rfl
    | awaitingFieldSelectors =>
      rw [feed_of_awaitingFieldSelectors b hs, feed_of_awaitingFieldSelectors (s := s.deliver evs) b hs]
      refine Simulates.ite ?_ (simulates_next rfl)
      exact checkHeader_simulates (s := s.appendByte b) rfl rfl rfl rfl rfl
    | awaitingPayloadAndChecksum =>
      rw [feed_of_awaitingPayloadAndChecksum b hs, feed_of_awaitingPayloadAndChecksum (s := s.deliver evs) b hs]
      refine Simulates.ite ?_ (simulates_next rfl)
      exact checkFrame_deliver evs (s.appendByte b)
  out := by
    rintro s - rfl
    rfl
  emit := by
    rintro s - o rfl
    rfl

theorem feed_deliver {b : Byte} (evs : List Event) (h : feed b s = .next t) :
    feed b (s.deliver evs) = .next (t.deliver evs) := by
  obtain ⟨-, ht, rfl⟩ := (deliveredTo_isSimulation evs).feed b rfl t h
  exact ht

/-- A step that takes a byte feeds it to the state that waits with the rest. -/
theorem step_deliver_byte (b : Byte) (evs : List Event) (s : State) :
    step (s.deliver (.byte b :: evs)) = feed b (s.deliver evs) := by
  rw [feed_eq_exec]
  exact step_of_decode rfl rfl

theorem run_succ_of_step (h : step s = .next t) (k : Nat) : core.run (k + 1) s = core.run k t := by
  have hcore : core.step s = .next t := h
  simp only [Host.Core.run, hcore]

/-- As many steps as bytes wait leave what one call with all of them leaves, the outputs apart. -/
theorem run_bytes_of_feedAll {bs : List Byte} {u : State} (h : feedAll bs s = .next u) :
    ∃ t, core.run bs.length (s.deliver (bs.map .byte)) = .next t ∧ t.sameButOut u := by
  induction bs generalizing s u with
  | nil =>
    cases h
    exact ⟨s, rfl, rfl⟩
  | cons b rest ih =>
    obtain ⟨v, w, hv, hw, rfl⟩ := feedAll_cons_next.mp h
    obtain ⟨t, ht, hsame⟩ := ih hw
    refine ⟨t, ?_, ?_⟩
    · have hstep := (step_deliver_byte b (rest.map .byte) s).trans (feed_deliver _ hv)
      exact (run_succ_of_step hstep rest.length).trans ht
    · exact hsame.emit _

/-! ### The counting law -/

/-- After `n` bytes each counter of `s` has grown in `t` by the number of its labels, up to its maximum; every `OK` has
its event and every byte its label (R118, decision D3). -/
structure RunCounts (n : Nat) (s t : State) : Prop where
  hdrErr : t.hdrErrCount.toNat =
    min (s.hdrErrCount.toNat + t.out.labels.count .heSync + t.out.labels.count .heLen) (2 ^ 32 - 1)
  crcErr : t.crcErrCount.toNat = min (s.crcErrCount.toNat + t.out.labels.count .ce) (2 ^ 32 - 1)
  ok     : t.okCount.toNat = min (s.okCount.toNat + t.out.labels.count .ok) (2 ^ 32 - 1)
  events : t.out.events.length = t.out.labels.count .ok
  labels : t.out.labels.length = n

theorem counter_eq_min (c : Counter) : c.toNat = min c.toNat (2 ^ 32 - 1) := by
  have hc : c.toNat < 2 ^ 32 := c.isLt
  omega

theorem ite_satInc_toNat (p : Prop) [Decidable p] (c : Counter) :
    (if p then satInc c else c).toNat = min (c.toNat + if p then 1 else 0) (2 ^ 32 - 1) := by
  by_cases hp : p
  · simp only [if_pos hp, satInc_toNat]
  · simp only [if_neg hp]
    exact counter_eq_min c

/-- No byte: every counter is where it was, at most its maximum. -/
theorem runCounts_nil (s : State) : RunCounts 0 s (s.emit {}) where
  hdrErr := counter_eq_min s.hdrErrCount
  crcErr := counter_eq_min s.crcErrCount
  ok     := counter_eq_min s.okCount
  events := rfl
  labels := rfl

/-- Both header errors at once: a label is at most one of the two. -/
theorem count_heSync_add_heLen (l : Label) :
    [l].count .heSync + [l].count .heLen = if l = .heSync ∨ l = .heLen then 1 else 0 := by
  cases l <;> rfl

theorem count_singleton_eq_ite (l l' : Label) : [l].count l' = if l = l' then 1 else 0 := by
  simp [List.count_singleton]

/-- A byte counted by its label, ahead of a run that is counted. -/
theorem RunCounts.cons {n : Nat} {l : Label} {u v : State} (hu : CountedBy l s u)
    (hev : u.out.events.length = [l].count .ok) (hv : RunCounts n u v) :
    RunCounts (n + 1) s (v.emit (u.out.append v.out)) where
  hdrErr := by
    have hgrow := hv.hdrErr
    rw [hu.hdrErr, ite_satInc_toNat, ← count_heSync_add_heLen] at hgrow
    simp only [State.emit_hdrErrCount, State.emit_out, StepOut.append, hu.labels, List.count_append, hgrow]
    omega
  crcErr := by
    have hgrow := hv.crcErr
    rw [hu.crcErr, ite_satInc_toNat, ← count_singleton_eq_ite] at hgrow
    simp only [State.emit_crcErrCount, State.emit_out, StepOut.append, hu.labels, List.count_append, hgrow]
    omega
  ok := by
    have hgrow := hv.ok
    rw [hu.ok, ite_satInc_toNat, ← count_singleton_eq_ite] at hgrow
    simp only [State.emit_okCount, State.emit_out, StepOut.append, hu.labels, List.count_append, hgrow]
    omega
  events := by
    simp only [State.emit_out, StepOut.append, hu.labels, List.count_append, List.length_append, hev, hv.events]
  labels := by
    simp only [State.emit_out, StepOut.append, hu.labels, List.length_append, List.length_singleton, hv.labels]
    omega

/-- A `FEED` emits an event exactly with the label `OK`. -/
theorem feed_events_length {b : Byte} {l : Label} (h : feed b s = .next t) (hl : t.out.labels = [l]) :
    t.out.events.length = [l].count .ok := by
  obtain ⟨l', hok, ho⟩ | ⟨p, -, -, ho⟩ := feed_out h
  · rw [ho] at hl ⊢
    cases hl
    simp [StepOut.ofLabel, hok]
  · rw [ho] at hl ⊢
    cases hl
    simp

theorem feedAll_runCounts {bs : List Byte} (h : feedAll bs s = .next t) : RunCounts bs.length s t := by
  induction bs generalizing s t with
  | nil =>
    cases h
    exact runCounts_nil s
  | cons b rest ih =>
    obtain ⟨u, v, hu, hv, rfl⟩ := feedAll_cons_next.mp h
    obtain ⟨l, -, hcount⟩ := feed_countedBy hu
    exact (ih hv).cons hcount (feed_events_length hu hcount.labels)

/-! ### Every byte sequence is accepted -/

theorem feed_completes (hinv : s.Inv) (b : Byte) : ∃ t, feed b s = .next t := by
  obtain ⟨t, ht, -⟩ := Proofs.everyByteTakesItsTableRow s b hinv
  exact ⟨t, (feed_eq_exec b s).trans ht⟩

theorem feedAll_completes (hinv : s.Inv) (bs : List Byte) : ∃ t, feedAll bs s = .next t := by
  induction bs generalizing s with
  | nil => exact ⟨_, rfl⟩
  | cons b rest ih =>
    obtain ⟨t, ht⟩ := feed_completes hinv b
    obtain ⟨u, hu⟩ := ih (feed_keeps_inv hinv ht)
    exact ⟨_, feedAll_cons_next.mpr ⟨t, u, ht, hu, rfl⟩⟩

theorem feedAll_input {bs : List Byte} (h : feedAll bs s = .next t) : t.input = s.input := by
  induction bs generalizing s t with
  | nil =>
    cases h
    rfl
  | cons b rest ih =>
    obtain ⟨u, v, hu, hv, rfl⟩ := feedAll_cons_next.mp h
    exact (ih (t := v) hv).trans (feed_input hu)

/-! ### Junk -/

/-- The state after `n` missed sync bytes, each of them a header error (R116). -/
def State.afterMisses (n : Nat) (s : State) : State :=
  { s with hdrErrCount := satInc^[n] s.hdrErrCount, out := { labels := List.replicate n .heSync } }

theorem feedAll_of_misses {bs : List Byte} (hs : s.state = .awaitingSync) (hbuf : s.buf = [])
    (hbs : ∀ b ∈ bs, b ≠ Config.sync) : feedAll bs s = .next (s.afterMisses bs.length) := by
  induction bs generalizing s with
  | nil => rfl
  | cons b rest ih =>
    obtain ⟨hb, hrest⟩ := List.forall_mem_cons.mp hbs
    have hfirst : feed b s = .next (s.afterMisses 1) := by
      rw [feed_of_awaitingSync b hs, if_neg hb]
      cases s
      cases hs
      cases hbuf
      rfl
    exact feedAll_cons_next.mpr ⟨_, _, hfirst, ih hs hbuf hrest, rfl⟩

end Sys2Proof.Machine

namespace Sys2Proof.Proofs

open Sys2Proof Sys2Proof.Machine

/-- Settles O48, by induction on the bytes. -/
theorem countingLaw : Obligations.CountingLaw := by
  intro s t bs h
  obtain ⟨hhdr, hcrc, hok, hevents, hlabels⟩ := feedAll_runCounts h
  exact ⟨hhdr, hcrc, hok, hevents, hlabels⟩

/-- Settles O53: a step with waiting bytes feeds the first of them, and what waits behind it changes nothing. -/
theorem oneCallEqualsSeparateSteps : Obligations.OneCallEqualsSeparateSteps := by
  intro s u bs rest hin h
  obtain ⟨t, ht, hsame⟩ := run_bytes_of_feedAll h
  have hs : State.deliver (bs.map .byte) { s with input := rest } = s := by
    rw [State.deliver, ← hin]
  exact ⟨t, by rwa [hs] at ht, hsame⟩

/-- Settles O19: the fold's own equations, and no run has a value. -/
theorem feedNIsTheFoldOfFeed : Obligations.FeedNIsTheFoldOfFeed := by
  refine ⟨fun s => rfl, fun s t u b rest ht hu => ?_⟩
  refine feedAll_cons_next.mpr ⟨t, u, (feed_eq_exec b s).trans ht, hu, ?_⟩
  rw [feedAll_append_out hu]
  rfl

/-- Settles O20, by induction on the bytes, from the rows of the decode table. -/
theorem everyByteSequenceIsAccepted : Obligations.EveryByteSequenceIsAccepted := by
  intro s bs hinv
  obtain ⟨t, ht⟩ := feedAll_completes hinv bs
  exact ⟨t, ht, feedAll_keeps_inv hinv ht, (feedAll_runCounts ht).labels, feedAll_input ht⟩

/-- Settles O52: a run does not read the outputs it finds, so the two slices are the two parts of one run. -/
theorem granularityDoesNotMatter : Obligations.GranularityDoesNotMatter := by
  intro s t t' u xs ys hxs hsame hys
  have ht' : t' = t.emit t'.out := hsame
  have hu : feedAll ys t = .next u := by
    rw [← feedAll_emit ys t t'.out, ← ht']
    exact hys
  refine feedAll_append_next.mpr ⟨t, u, hxs, hu, ?_⟩
  rw [feedAll_append_out hu]
  rfl

/-- Settles O54, by induction on the bytes. -/
theorem resyncAfterJunk : Obligations.ResyncAfterJunk :=
  fun _ _ => feedAll_of_misses

end Sys2Proof.Proofs
end

section
/-! PROOFS. The function units, and what no step reads (30_encoding.md R87, R88, 93_implementation_defined.md U7): O41
and O58. A unit answers the same in every state; that the states which agree up to stale working values simulate one
another is shown row by row. -/

namespace Sys2Proof.Machine

variable {s s' t : State}

/-! ### The function units -/

/-- A unit with operands in its domain returns one value, whatever the state (R87, R88). -/
theorem exec_unit_of_wf {i : Instr} (hu : decodeUnit i = .ok i) (hwf : i.wf = true) :
    ∃ v, ∀ s, exec i s = .next (s.emit (.ofValue v)) := by
  cases i with
  | groups | hdrlen | crcStep | crc16 | crcVerify | pack | buildRef => exact ⟨_, fun _ => rfl⟩
  | resolve gs fb => exact ⟨_, fun s => execResolve_of_some s (resolve_eq_widthSum hwf)⟩
  | unpack p =>
    by_cases hp : p.length = 144
    · exact ⟨_, execUnpack_of_length hp⟩
    · exact ⟨_, execUnpack_of_length_ne hp⟩
  | build sel words payload => exact ⟨_, fun _ => if_pos hwf⟩
  | _ => cases hu

/-- A unit with operands outside its domain is refused (R135, R170). -/
theorem exec_unit_of_not_wf {i : Instr} (hu : decodeUnit i = .ok i) (hwf : i.wf = false) (s : State) :
    exec i s = .refused .outsideDomain := by
  cases i with
  | resolve gs fb =>
    have hdom : resolveDomain gs fb = false := hwf
    change execResolve gs fb s = _
    simp [execResolve, resolve, hdom]
  | build sel words payload =>
    have hdom : buildDomain sel words = false := hwf
    exact if_neg (by simp [hdom])
  | groups | hdrlen | crcStep | crc16 | crcVerify | unpack | pack | buildRef => cases hwf
  | _ => cases hu

/-! ### States that agree up to stale working values -/

/-- The two states differ in working values only that the current frame has not written (U7). -/
def AgreeUpToStale (s t : State) : Prop := Spec.eraseStale s = Spec.eraseStale t

/-- `s` with the four working values of `u`. -/
def State.withWorkingOf (s u : State) : State :=
  { s with gsel := u.gsel, groups := u.groups, hdrLen := u.hdrLen, payLen := u.payLen }

@[simp] theorem eraseStale_state (s : State) : (Spec.eraseStale s).state = s.state := by
  unfold Spec.eraseStale
  split <;> rfl

@[simp] theorem eraseStale_out (s : State) : (Spec.eraseStale s).out = s.out := by
  unfold Spec.eraseStale
  split <;> rfl

@[simp] theorem eraseStale_input (s : State) : (Spec.eraseStale s).input = s.input := by
  unfold Spec.eraseStale
  split <;> rfl

theorem eraseStale_emit (s : State) (o : StepOut) :
    Spec.eraseStale (s.emit o) = (Spec.eraseStale s).emit o := by
  unfold Spec.eraseStale
  cases hs : s.state <;> simp only [State.emit, hs]

theorem AgreeUpToStale.state_eq (h : AgreeUpToStale s t) : t.state = s.state := by
  simpa using congrArg State.state h.symm

theorem AgreeUpToStale.out_eq (h : AgreeUpToStale s t) : t.out = s.out := by
  simpa using congrArg State.out h.symm

theorem AgreeUpToStale.input_eq (h : AgreeUpToStale s t) : t.input = s.input := by
  simpa using congrArg State.input h.symm

theorem AgreeUpToStale.emit (h : AgreeUpToStale s t) (o : StepOut) : AgreeUpToStale (s.emit o) (t.emit o) := by
  rw [AgreeUpToStale, eraseStale_emit, eraseStale_emit, h]

theorem eraseStale_withInput (s : State) (evs : List Event) :
    Spec.eraseStale { s with input := evs } = { Spec.eraseStale s with input := evs } := by
  unfold Spec.eraseStale
  cases hs : s.state <;> simp only [hs]

theorem AgreeUpToStale.withInput (h : AgreeUpToStale s t) (evs : List Event) :
    AgreeUpToStale { s with input := evs } { t with input := evs } := by
  rw [AgreeUpToStale, eraseStale_withInput, eraseStale_withInput t, h]

/-- The working values are all that is erased. -/
theorem eraseStale_withWorkingOf (s u : State) : (Spec.eraseStale s).withWorkingOf u = s.withWorkingOf u := by
  unfold Spec.eraseStale
  split <;> rfl

theorem AgreeUpToStale.eq_withWorkingOf (h : AgreeUpToStale s t) : t = s.withWorkingOf t :=
  calc t = (Spec.eraseStale t).withWorkingOf t := (eraseStale_withWorkingOf t t).symm
    _ = (Spec.eraseStale s).withWorkingOf t := by rw [h]
    _ = s.withWorkingOf t := eraseStale_withWorkingOf s t

/-- While the header is in progress `pay_len` alone is stale. -/
theorem eraseStale_of_awaitingFieldSelectors (hs : s.state = .awaitingFieldSelectors) :
    Spec.eraseStale s = s.takePayLen 0 := by
  simp only [Spec.eraseStale, hs, State.takePayLen]

theorem AgreeUpToStale.eq_takePayLen (h : AgreeUpToStale s t) (hs : s.state = .awaitingFieldSelectors) :
    t = s.takePayLen t.payLen := by
  have herase : s.takePayLen 0 = t.takePayLen 0 := by
    rw [← eraseStale_of_awaitingFieldSelectors hs, ← eraseStale_of_awaitingFieldSelectors (h.state_eq.trans hs), h]
  calc t = (t.takePayLen 0).takePayLen t.payLen := rfl
    _ = (s.takePayLen 0).takePayLen t.payLen := by rw [herase]
    _ = s.takePayLen t.payLen := rfl

theorem AgreeUpToStale.eq_of_awaitingPayloadAndChecksum (h : AgreeUpToStale s t)
    (hs : s.state = .awaitingPayloadAndChecksum) : t = s := by
  have ht := h.state_eq
  simp only [AgreeUpToStale, Spec.eraseStale, hs, ht] at h
  exact h.symm

/-- A row writes each working value before it reads it (R104, R106), and the end of an attempt makes all four stale. -/
theorem feed_agreeUpToStale (b : Byte) (h : AgreeUpToStale s s') :
    Simulates AgreeUpToStale (feed b s) (feed b s') := by
  have hs' := h.state_eq
  cases hs : s.state with
  | awaitingSync =>
    rw [feed_of_awaitingSync b hs, feed_of_awaitingSync b (hs'.trans hs), h.eq_withWorkingOf]
    refine simulates_next ?_
    split <;> rfl
  | awaitingGroupSelector =>
    rw [feed_of_awaitingGroupSelector b hs, feed_of_awaitingGroupSelector b (hs'.trans hs),
      h.eq_withWorkingOf]
    refine Simulates.ite ?_ (simulates_next rfl)
    exact checkHeader_simulates (s := afterSelector b s) rfl rfl rfl rfl rfl
  | awaitingFieldSelectors =>
    rw [feed_of_awaitingFieldSelectors b hs, feed_of_awaitingFieldSelectors b (hs'.trans hs), h.eq_takePayLen hs]
    refine Simulates.ite ?_ (simulates_next ?_)
    · exact checkHeader_simulates (s := s.appendByte b) rfl rfl rfl rfl rfl
    · simp [AgreeUpToStale, Spec.eraseStale, hs, State.takePayLen, State.emit, State.appendByte]
  | awaitingPayloadAndChecksum =>
    rw [h.eq_of_awaitingPayloadAndChecksum hs]
    exact fun t ht => ⟨t, ht, rfl⟩

theorem agreeUpToStale_isSimulation : IsSimulation AgreeUpToStale where
  feed := feed_agreeUpToStale
  out  := AgreeUpToStale.out_eq
  emit := fun o h => h.emit o

/-- Taking an event reads the waiting events only. -/
theorem takeEvent_agreeUpToStale (h : AgreeUpToStale s s') :
    (takeEvent s').1 = (takeEvent s).1 ∧ AgreeUpToStale (takeEvent s).2 (takeEvent s').2 := by
  have hin := h.input_eq
  cases hs : s.input with
  | nil => simpa [takeEvent, hin, hs] using h
  | cons ev rest => simpa [takeEvent, hin, hs] using h.withInput rest

theorem step_agreeUpToStale (h : AgreeUpToStale s s') : Simulates AgreeUpToStale (step s) (step s') := by
  intro t hstep
  obtain ⟨i, hdec, hexec⟩ := step_eq_next hstep
  obtain ⟨hev, hagree⟩ := takeEvent_agreeUpToStale h
  have hstep' : step s' = exec i (takeEvent s').2 := by
    rw [step, hev, hagree.state_eq, hdec]
  rw [hstep']
  obtain ⟨b, -, rfl⟩ | ⟨bs, -, rfl⟩ | ⟨-, rfl⟩ | ⟨-, rfl⟩ | ⟨-, hu⟩ := decode_cases hdec
  · rw [← feed_eq_exec] at hexec
    rw [← hagree.state_eq, ← feed_eq_exec]
    exact feed_agreeUpToStale b hagree t hexec
  · exact agreeUpToStale_isSimulation.feedAll_simulates bs hagree t hexec
  · cases hexec
    exact ⟨_, rfl, hagree.emit _⟩
  · cases hexec
    refine ⟨_, rfl, ?_⟩
    rw [hagree.input_eq]
    rfl
  · cases hwf : i.wf with
    | true =>
      obtain ⟨v, hv⟩ := exec_unit_of_wf hu hwf
      cases (hv _).symm.trans hexec
      exact ⟨_, hv _, hagree.emit _⟩
    | false => cases (exec_unit_of_not_wf hu hwf _).symm.trans hexec

end Sys2Proof.Machine

namespace Sys2Proof.Proofs

open Sys2Proof Sys2Proof.Machine

/-- Settles O58: the step relation of `AgreeUpToStale`, for the event both states take. -/
theorem staleWorkingValuesAreInvisible : Obligations.StaleWorkingValuesAreInvisible :=
  fun _ _ t h hstep => step_agreeUpToStale h t hstep

/-- Settles O41, from `exec_unit_of_wf`. -/
theorem unitsReturnAValueAndNothingElse : Obligations.UnitsReturnAValueAndNothingElse := by
  intro i s hdec hwf
  obtain ⟨-, hu⟩ := decodeUnit_eq_ok hdec
  obtain ⟨v, hv⟩ := exec_unit_of_wf hu hwf
  exact ⟨v, hv s⟩

end Sys2Proof.Proofs
end

section
/-! PROOFS. The laws of the checksum (43_checksum.md R141, R145 to R148): O29 and O32 to O35. A step is linear over
exclusive or, because each clause is; and it loses nothing, so sequences that differ once stay apart. -/

namespace Sys2Proof.Machine

/-! ### Linearity -/

/-- A function that takes the exclusive or of two words to that of their images. -/
def XorLinear (f : Word16 → Word16) : Prop := ∀ x y, f (x ^^^ y) = f x ^^^ f y

theorem XorLinear.comp {f g : Word16 → Word16} (hf : XorLinear f) (hg : XorLinear g) :
    XorLinear fun x => f (g x) :=
  fun x y => (congrArg f (hg x y)).trans (hf _ _)

/-- An update `x ↦ x ^ N x` is linear when `N` is. -/
theorem XorLinear.self_xor {N : Word16 → Word16} (hN : XorLinear N) : XorLinear fun x => x ^^^ N x := by
  intro x y
  simp only [hN x y]
  ac_rfl

theorem mixNibble_linear : XorLinear mixNibble :=
  XorLinear.self_xor fun x y => by rw [xor_and_lowByte, BitVec.ushiftRight_xor_distrib]

theorem mixTop_linear : XorLinear mixTop :=
  XorLinear.self_xor fun x y => BitVec.shiftLeft_xor_distrib x y 12

theorem mixLow_linear : XorLinear mixLow :=
  XorLinear.self_xor fun x y => by rw [xor_and_lowByte, BitVec.shiftLeft_xor_distrib]

theorem crcMix_linear : XorLinear crcMix := mixLow_linear.comp (mixTop_linear.comp mixNibble_linear)

theorem be16_xor (h h' l l' : Byte) : be16 (h ^^^ h') (l ^^^ l') = be16 h l ^^^ be16 h' l' := by
  ext i hi'
  by_cases h8 : i < 8
  · simp [be16, h8]
  · have hge : 8 ≤ i := by omega
    have hsub : i - 8 < 8 := by omega
    simp [be16, h8, hge, hsub]

/-- A step is linear in the accumulator and the byte together (R145). -/
theorem crcStep_xor (x y : Word16) (b c : Byte) : crcStep (x ^^^ y) (b ^^^ c) = crcStep x b ^^^ crcStep y c := by
  rw [← be16_hi_lo x, ← be16_hi_lo y, ← be16_xor, crcStep_be16, crcStep_be16, crcStep_be16, ← crcMix_linear, ← be16_xor]
  ac_rfl

/-- Folding equal-length sequences, from accumulators of their own. -/
theorem foldl_crcStep_xor {p q : List Byte} (h : p.length = q.length) (x y : Word16) :
    (List.zipWith (· ^^^ ·) p q).foldl crcStep (x ^^^ y) = p.foldl crcStep x ^^^ q.foldl crcStep y := by
  induction p generalizing q x y with
  | nil =>
    cases List.eq_nil_of_length_eq_zero h.symm
    rfl
  | cons b p ih =>
    match q, h with
    | c :: q, h =>
      rw [List.zipWith_cons_cons, List.foldl_cons, crcStep_xor]
      exact ih (Nat.succ.inj h) _ _

/-! ### Sensitivity -/

theorem crcStep_eq_crcMix (acc : Word16) (b : Byte) : crcStep acc b = crcMix (be16 (lo acc) (hi acc ^^^ b)) := by
  rw [← crcStep_be16, be16_hi_lo]

/-- On a given byte different accumulators stay different. -/
theorem crcStep_injective_left (b : Byte) : Function.Injective fun acc => crcStep acc b := by
  intro x y h
  simp only [crcStep_eq_crcMix, crcMix_injective.eq_iff, be16_inj, BitVec.xor_left_inj] at h
  obtain ⟨hlo, hhi⟩ := h
  rw [← be16_hi_lo x, ← be16_hi_lo y, hlo, hhi]

/-- From a given accumulator different bytes lead to different ones. -/
theorem crcStep_injective_right (acc : Word16) : Function.Injective (crcStep acc) := by
  intro b c h
  simpa [crcStep_eq_crcMix, crcMix_injective.eq_iff, be16_inj] using h

theorem foldl_crcStep_injective (bytes : List Byte) : Function.Injective fun acc => bytes.foldl crcStep acc := by
  induction bytes with
  | nil => exact fun _ _ h => h
  | cons b rest ih => exact ih.comp (crcStep_injective_left b)

theorem crc16_append (pre post : List Byte) : crc16 (pre ++ post) = post.foldl crcStep (crc16 pre) :=
  List.foldl_append

/-! ### The bit-serial form -/

/-- The last bit is the only one a step of the bit-serial form looks at. -/
theorem bitStep_linear : XorLinear Spec.bitStep := by
  intro x y
  simp only [Spec.bitStep, BitVec.shiftLeft_xor_distrib, BitVec.getLsbD_xor]
  cases x.getLsbD 15 <;> cases y.getLsbD 15
  · rfl
  · exact BitVec.xor_assoc _ _ _
  · change (x <<< 1 ^^^ y <<< 1) ^^^ 0x1021#16 = (x <<< 1 ^^^ 0x1021#16) ^^^ y <<< 1
    ac_rfl
  · have hcancel : 0x1021#16 ^^^ 0x1021#16 = 0#16 := rfl
    calc x <<< 1 ^^^ y <<< 1 = (x <<< 1 ^^^ y <<< 1) ^^^ (0x1021#16 ^^^ 0x1021#16) := by
          rw [hcancel, BitVec.xor_zero]
      _ = (x <<< 1 ^^^ 0x1021#16) ^^^ (y <<< 1 ^^^ 0x1021#16) := by ac_rfl

theorem iterate_linear {f : Word16 → Word16} (hf : XorLinear f) (n : Nat) : XorLinear f^[n] := by
  induction n with
  | zero => exact fun _ _ => rfl
  | succ n ih => exact ih.comp hf

/-- A word with high byte 0 goes through eight steps without the polynomial: its bytes change places. -/
theorem iterate_bitStep_low (l : Byte) : Spec.bitStep^[8] (be16 0x00#8 l) = crcMix (be16 l 0x00#8) := by
  revert l
  decide

theorem iterate_bitStep_high (h : Byte) : Spec.bitStep^[8] (be16 h 0x00#8) = crcMix (be16 0x00#8 h) := by
  revert h
  decide

/-- The byte enters the high byte of the accumulator before the eight steps; its low byte goes through them alone. -/
theorem crcStep_eq_bitSerial (acc : Word16) (b : Byte) : crcStep acc b = Spec.bitSerial acc b := by
  have henter : acc ^^^ (b.setWidth 16 <<< 8) = be16 (hi acc ^^^ b) 0x00#8 ^^^ be16 0x00#8 (lo acc) := by
    calc acc ^^^ (b.setWidth 16 <<< 8) = be16 (hi acc) (lo acc) ^^^ be16 b 0x00#8 := by
          rw [be16_hi_lo]
          simp [be16]
      _ = be16 (hi acc ^^^ b) 0x00#8 ^^^ be16 0x00#8 (lo acc) := by
          rw [← be16_xor, ← be16_xor, BitVec.xor_zero, BitVec.xor_zero, BitVec.zero_xor]
  calc crcStep acc b = crcMix (be16 0x00#8 (hi acc ^^^ b) ^^^ be16 (lo acc) 0x00#8) := by
        simp [crcStep_eq_crcMix, ← be16_xor]
    _ = Spec.bitSerial acc b := by
        rw [crcMix_linear, ← iterate_bitStep_high, ← iterate_bitStep_low, ← iterate_linear bitStep_linear 8, ← henter]
        rfl

/-! ### The clauses on numbers -/

theorem swap_toNat (acc : Word16) :
    (acc >>> 8 ||| acc <<< 8).toNat = Spec.trunc16 ((acc.toNat >>> 8) ||| (acc.toNat <<< 8)) := by
  have hacc : acc.toNat < 65536 := acc.isLt
  have hhigh : (acc.toNat >>> 8) % 2 ^ 16 = acc.toNat >>> 8 := by
    rw [Nat.shiftRight_eq_div_pow]
    omega
  calc (acc >>> 8 ||| acc <<< 8).toNat = (acc.toNat >>> 8) ||| ((acc.toNat <<< 8) % 2 ^ 16) := by simp
    _ = ((acc.toNat >>> 8) % 2 ^ 16) ||| ((acc.toNat <<< 8) % 2 ^ 16) := by rw [hhigh]
    _ = Spec.trunc16 ((acc.toNat >>> 8) ||| (acc.toNat <<< 8)) := (Nat.or_mod_two_pow).symm

theorem mixNibble_toNat (a : Word16) : (mixNibble a).toNat = a.toNat ^^^ ((a.toNat &&& 0x00FF) >>> 4) := by
  simp [mixNibble]

theorem mixTop_toNat (a : Word16) : (mixTop a).toNat = a.toNat ^^^ Spec.trunc16 (a.toNat <<< 12) := by
  simp [mixTop, Spec.trunc16]

/-- The shift of the fifth clause stays inside 16 bits. -/
theorem mixLow_toNat (a : Word16) : (mixLow a).toNat = a.toNat ^^^ ((a.toNat &&& 0x00FF) <<< 5) := by
  have hlow : a.toNat &&& 0x00FF ≤ 0x00FF := Nat.and_le_right
  have hshift : ((a.toNat &&& 0x00FF) <<< 5) % 65536 = (a.toNat &&& 0x00FF) <<< 5 := by
    rw [Nat.shiftLeft_eq]
    omega
  simp [mixLow, hshift]

/-- The five clauses one after the other, each on the number the one before left (R141, decision D8). -/
theorem crcStep_toNat (acc : Word16) (b : Byte) : (crcStep acc b).toNat = Spec.crcStepNat acc.toNat b.toNat := by
  have hb : (b.setWidth 16).toNat = b.toNat := BitVec.toNat_setWidth_of_le (by decide)
  have hclauses : crcStep acc b = mixLow (mixTop (mixNibble ((acc >>> 8 ||| acc <<< 8) ^^^ b.setWidth 16))) := rfl
  rw [hclauses, mixLow_toNat, mixTop_toNat, mixNibble_toNat, BitVec.toNat_xor, swap_toNat, hb]
  rfl

end Sys2Proof.Machine

namespace Sys2Proof.Proofs

open Sys2Proof Sys2Proof.Machine

/-- Settles O32: both forms are linear, and each half of the accumulator is carried through eight steps on its own. -/
theorem crcStepEqualsTheBitSerialForm : Obligations.CrcStepEqualsTheBitSerialForm := crcStep_eq_bitSerial

/-- Settles O29, clause by clause. -/
theorem crcStepIsFiveSequentialUpdates : Obligations.CrcStepIsFiveSequentialUpdates :=
  fun _ acc b => ⟨crcStep acc b, rfl, crcStep_toNat acc b⟩

/-- Settles O33, both directions from `crc16_append_pair_eq_zero_iff`. -/
theorem crcResidueIsZero : Obligations.CrcResidueIsZero := by
  refine ⟨fun bytes => ?_, fun bytes h l hzero => ?_⟩
  · rw [crc16_append_pair_eq_zero_iff, be16_hi_lo]
  · exact ((crc16_append_pair_eq_zero_iff bytes h l).mp hzero).symm

/-- Settles O34: the fold of a linear step, from the start value 0. -/
theorem crcIsLinear : Obligations.CrcIsLinear :=
  ⟨crcStep_xor, fun _ _ h => foldl_crcStep_xor h 0#16 0#16⟩

/-- Settles O35: the differing byte leads to different accumulators, and the bytes after it keep them apart. -/
theorem singleByteChangeChangesTheChecksum : Obligations.SingleByteChangeChangesTheChecksum := by
  intro pre post b c hbc h
  rw [crc16_append, crc16_append] at h
  exact hbc (crcStep_injective_right _ (foldl_crcStep_injective post h))

end Sys2Proof.Proofs
end

section
/-! PROOFS. The codec's bijection and the builder (44_telemetry_codec.md R156, 45_frame_builder.md R170, R171): O38, O39
and O40. Both directions of the codec go through the element table: a record is its table, and the slices of the layout
are the whole payload. -/

namespace Sys2Proof.Machine

/-! ### UNPACK of PACK -/

/-- A record is determined by its table. -/
theorem elementTable_injective : Function.Injective elementTable := by
  intro r r' h
  simp only [elementTable, List.cons_append, List.nil_append, List.cons.injEq, Prod.mk.injEq, BitVec.toNat_inj] at h
  rcases r with ⟨a, ⟨⟩, ⟨⟩, ⟨⟩, ⟨⟩, ⟨⟩, b, c, d, ⟨⟩, e, ⟨⟩, ⟨⟩, f, ⟨⟩⟩
  rcases r' with ⟨a, ⟨⟩, ⟨⟩, ⟨⟩, ⟨⟩, ⟨⟩, b, c, d, ⟨⟩, e, ⟨⟩, ⟨⟩, f, ⟨⟩⟩
  simp_all

/-- Every value of the table fits in the bytes of its element. -/
theorem elementTable_lt (r : TelemetryRecord) : ∀ e ∈ elementTable r, e.2.2 < 256 ^ e.2.1 := by
  have h64 (x : BitVec 64) : x.toNat < 256 ^ 8 := x.isLt
  have h32 (x : BitVec 32) : x.toNat < 256 ^ 4 := x.isLt
  have h16 (x : BitVec 16) : x.toNat < 256 ^ 2 := x.isLt
  have h8 (x : BitVec 8) : x.toNat < 256 ^ 1 := x.isLt
  simp only [elementTable, List.cons_append, List.nil_append, List.forall_mem_cons, h64, h32, h16, h8, true_and]
  exact List.forall_mem_nil _

theorem recordOf_pack (r : TelemetryRecord) : recordOf (pack r) = r := by
  apply elementTable_injective
  rw [elementTable_recordOf, ← elementTable_layout r, List.map_map]
  refine (List.map_congr_left fun e he => ?_).trans (List.map_id _)
  have hvalue : leNat (slice (pack r) e.1 (e.1 + e.2.1)) = e.2.2 := by
    rw [slice_pack he, leNat_bytesLe, Nat.mod_eq_of_lt (elementTable_lt r e he)]
  exact congrArg (fun v => (e.1, e.2.1, v)) hvalue

/-! ### PACK of UNPACK -/

/-- Pieces that adjoin one another, cut out of `p` from the end of `last` on, put together again. -/
theorem flatMap_slice {es : List (Nat × Nat)} {last : Nat × Nat} (p : List Byte) (h : (last :: es).IsChain Adjoins) :
    es.flatMap (fun e => slice p e.1 (e.1 + e.2)) = (p.drop (last.1 + last.2)).take (es.map Prod.snd).sum := by
  induction es generalizing last with
  | nil => simp
  | cons x es ih =>
    obtain ⟨hx, hes⟩ := List.isChain_cons_cons.mp h
    have hx' : x.1 = last.1 + last.2 := hx
    rw [List.flatMap_cons, ih hes, List.map_cons, List.sum_cons, List.take_add, List.drop_drop, ← hx', slice,
      Nat.add_sub_cancel_left]

theorem pack_recordOf {p : List Byte} (hp : p.length = 144) : pack (recordOf p) = p := by
  have hinside : ∀ e ∈ Spec.elementLayout, e.1 + e.2 ≤ 144 := by decide
  have hpiece : ∀ e ∈ Spec.elementLayout,
      bytesLe e.2 (leNat (slice p e.1 (e.1 + e.2))) = slice p e.1 (e.1 + e.2) := by
    intro e he
    have hlen : (slice p e.1 (e.1 + e.2)).length = e.2 := by
      rw [slice_length (hp ▸ hinside e he), Nat.add_sub_cancel_left]
    simpa [hlen] using bytesLe_leNat (slice p e.1 (e.1 + e.2))
  calc pack (recordOf p)
      = Spec.elementLayout.flatMap fun e => bytesLe e.2 (leNat (slice p e.1 (e.1 + e.2))) := by
        rw [pack, elementTable_recordOf, List.flatMap_map]
    _ = Spec.elementLayout.flatMap fun e => slice p e.1 (e.1 + e.2) := List.flatMap_congr hpiece
    _ = p.take 144 := flatMap_slice p elementLayout_isChain
    _ = p := List.take_of_length_le hp.le

/-! ### The built frame -/

theorem frameBody_length (sel : Byte) (words : List Word16) (payload : List Byte) :
    (frameBody sel words payload).length = 1 + 2 * words.length + payload.length := by
  simp [frameBody]
  omega

/-- A built frame is its sync byte, its body and the two bytes of the body's checksum (R170). -/
theorem buildFrame_eq (sel : Byte) (words : List Word16) (payload : List Byte) :
    buildFrame sel words payload = Config.sync :: (frameBody sel words payload ++
      [hi (crc16 (frameBody sel words payload)), lo (crc16 (frameBody sel words payload))]) := rfl

theorem frameRx_buildFrame (sel : Byte) (words : List Word16) (payload : List Byte) :
    Spec.frameRx (buildFrame sel words payload) = crc16 (frameBody sel words payload) := by
  simp [Spec.frameRx, buildFrame_eq, List.getD_eq_getElem?_getD]

theorem frameCalc_buildFrame (sel : Byte) (words : List Word16) (payload : List Byte) :
    Spec.frameCalc (buildFrame sel words payload) = crc16 (frameBody sel words payload) := by
  simp [Spec.frameCalc, buildFrame_eq]

/-- The ten fixed bytes of the reference frame (R171). -/
def refFrameHeader : List Byte := Config.sync :: Config.refGroupSel :: wordBytes Config.refFieldSel

theorem buildRefFrame_eq (r : TelemetryRecord) : buildRefFrame r = refFrameHeader ++ (pack r ++
    [hi (crc16 (frameBody Config.refGroupSel Config.refFieldSel (pack r))),
      lo (crc16 (frameBody Config.refGroupSel Config.refFieldSel (pack r)))]) := rfl

end Sys2Proof.Machine

namespace Sys2Proof.Proofs

open Sys2Proof Sys2Proof.Machine

/-- Settles O38, from `recordOf_pack` and `pack_recordOf`. -/
theorem codecIsABijection : Obligations.CodecIsABijection := by
  refine ⟨fun r => ?_, fun p hp => ?_⟩
  · exact unpack_eq_ok.mpr ⟨pack_length r, (recordOf_pack r).symm⟩
  · exact ⟨recordOf p, unpack_eq_ok.mpr ⟨hp, rfl⟩, pack_recordOf hp⟩

/-- Settles O39: inside the domain the frame is the one the builder puts together. -/
theorem buildAssemblesTheFrame : Obligations.BuildAssemblesTheFrame := by
  intro s sel words payload hwords
  have hdom : buildDomain sel words = true := beq_iff_eq.mpr hwords
  exact ⟨frameBody sel words payload, rfl, if_pos hdom⟩

/-- Settles O40: the frame is the fixed header, the packed record and the checksum. -/
theorem buildRefAssemblesTheReferenceFrame : Obligations.BuildRefAssemblesTheReferenceFrame := by
  intro s r
  have hpay := pack_length r
  have hcovered : slice (buildRefFrame r) 1 154 = frameBody Config.refGroupSel Config.refFieldSel (pack r) := by
    have hbody : (frameBody Config.refGroupSel Config.refFieldSel (pack r)).length = 153 := by
      rw [frameBody_length, hpay]
      rfl
    have hcut := slice_append_append [Config.sync] (frameBody Config.refGroupSel Config.refFieldSel (pack r))
    rw [hbody] at hcut
    exact hcut _
  have hrecord : slice (buildRefFrame r) 10 154 = pack r := by
    have hcut := slice_append_append refFrameHeader (pack r)
    rw [hpay] at hcut
    exact hcut _
  have hheader : slice (buildRefFrame r) 1 10 = [0x39, 0x01, 0xE9, 0x06, 0x1A, 0x01, 0x40, 0x00, 0x09] := rfl
  refine ⟨buildRefFrame r, rfl, ?_, rfl, hrecord, ?_, ?_⟩
  · simp [buildRefFrame_eq, hpay, refFrameHeader]
    rfl
  · rw [hheader]
    decide
  · rw [hcovered]
    exact frameRx_buildFrame _ _ _

end Sys2Proof.Proofs
end

section
/-! PROOFS. The laws of a whole frame (41_framescanner.md R107, R113, R117, 45_frame_builder.md R172, R173): O51 and O55
to O57. A run of bytes that are only stored is one append; the header of a built frame is such a run that ends in the
header check, its payload and checksum one that ends in the frame check. -/

namespace Sys2Proof.Machine

variable {s t u : State}

/-! ### Runs of bytes that are only stored -/

/-- `s` with `bs` stored. -/
def State.appendBytes (bs : List Byte) (s : State) : State := { s with buf := s.buf ++ bs }

@[simp] theorem State.appendBytes_nil (s : State) : s.appendBytes [] = s := by
  simp [State.appendBytes]

theorem State.appendByte_appendBytes (bs : List Byte) (b : Byte) (s : State) :
    (s.appendBytes bs).appendByte b = s.appendBytes (bs ++ [b]) := by
  simp [State.appendBytes, State.appendByte]

theorem feed_value {b : Byte} (h : feed b s = .next t) : t.out.value = none := by
  obtain ⟨l, -, ho⟩ | ⟨p, -, -, ho⟩ := feed_out h
  · rw [ho]
    rfl
  · rw [ho]

theorem feedAll_singleton {b : Byte} (h : feed b s = .next t) : feedAll [b] s = .next t := by
  refine feedAll_cons_next.mpr ⟨t, _, h, rfl, ?_⟩
  have hout : t.out.append {} = t.out := by simp [StepOut.append, ← feed_value h]
  exact (congrArg t.emit hout).symm

/-- Each of the next `n` bytes is stored, with label `l` and no other effect. -/
def AppendsFor (l : Label) (n : Nat) (s : State) : Prop :=
  ∀ p b, p.length < n → feed b (s.appendBytes p) = .next ((s.appendBytes (p ++ [b])).emit (.ofLabel l))

theorem appendsFor_fsel {n : Nat} (hs : s.state = .awaitingFieldSelectors) (hn : s.buf.length + n < s.hdrLen) :
    AppendsFor .fsel n s := by
  intro p b hp
  have hl : (s.appendBytes p).buf.length + 1 ≠ (s.appendBytes p).hdrLen := by
    simp [State.appendBytes]
    omega
  rw [feed_of_awaitingFieldSelectors (s := s.appendBytes p) b hs, if_neg hl, State.appendByte_appendBytes]

theorem appendsFor_pay {n : Nat} (hs : s.state = .awaitingPayloadAndChecksum)
    (hn : s.buf.length + n < s.hdrLen + s.payLen + 2) : AppendsFor .pay n s := by
  intro p b hp
  have hl : (s.appendBytes p).buf.length + 1 ≠ (s.appendBytes p).hdrLen + (s.appendBytes p).payLen + 2 := by
    simp [State.appendBytes]
    omega
  rw [feed_of_awaitingPayloadAndChecksum (s := s.appendBytes p) b hs, if_neg hl, State.appendByte_appendBytes]

/-- The outputs of a run that emits labels only. -/
def StepOut.ofLabels (ls : List Label) : StepOut := { labels := ls }

theorem AppendsFor.feedAll_eq {l : Label} {n : Nat} {bs : List Byte} (h : AppendsFor l n s) (hn : bs.length ≤ n) :
    feedAll bs s = .next ((s.appendBytes bs).emit (.ofLabels (.replicate bs.length l))) := by
  induction bs using List.reverseRecOn with
  | nil =>
    rw [State.appendBytes_nil]
    rfl
  | append_singleton bs c ih =>
    have hlen : bs.length < n := by simpa using hn
    have hlast := (feedAll_emit [c] (s.appendBytes bs) (.ofLabels (.replicate bs.length l))).trans
      (feedAll_singleton (h bs c hlen))
    refine feedAll_append_next.mpr ⟨_, _, ih hlen.le, hlast, ?_⟩
    simp [StepOut.append, StepOut.ofLabels, StepOut.ofLabel, List.replicate_succ']

/-- A run over bytes that are only stored, and the byte after it. -/
theorem AppendsFor.feedAll_concat_eq {l : Label} {n : Nat} {bs : List Byte} {b : Byte} (h : AppendsFor l n s)
    (hn : bs.length ≤ n) (hb : feed b (s.appendBytes bs) = .next u) :
    feedAll (bs ++ [b]) s = .next (u.emit (.append (.ofLabels (.replicate bs.length l)) u.out)) :=
  feedAll_append_next.mpr ⟨_, u, h.feedAll_eq hn, (feedAll_emit ..).trans (feedAll_singleton hb), rfl⟩

/-! ### The payload and the checksum -/

/-- The last byte of a frame, after a run of stored ones, is judged by the frame check (R107). -/
theorem feedAll_payload {bs : List Byte} {b : Byte} (hs : s.state = .awaitingPayloadAndChecksum)
    (hl : s.buf.length + bs.length + 1 = s.hdrLen + s.payLen + 2)
    (h : checkFrame (s.appendBytes (bs ++ [b])) = .next u) :
    feedAll (bs ++ [b]) s = .next (u.emit (.append (.ofLabels (.replicate bs.length .pay)) u.out)) := by
  refine (appendsFor_pay hs (by omega)).feedAll_concat_eq le_rfl ?_
  have hlast : (s.appendBytes bs).buf.length + 1 = (s.appendBytes bs).hdrLen + (s.appendBytes bs).payLen + 2 := by
    simpa [State.appendBytes] using hl
  rw [feed_of_awaitingPayloadAndChecksum (s := s.appendBytes bs) b hs, if_pos hlast, State.appendByte_appendBytes, h]

/-- The frame check ends the frame, with `OK` or `CE` (R108). -/
theorem checkFrame_ends (hp : s.payLen = 144) (hl : s.buf.length = s.hdrLen + s.payLen + 2) :
    ∃ u, checkFrame s = .next u ∧
      ∃ l, u.out.labels = [l] ∧ (l = .ok ∨ l = .ce) ∧ u.state = .awaitingSync ∧ u.buf = [] := by
  refine ⟨_, checkFrame_eq_afterFrameCheck hp hl, ?_⟩
  unfold Spec.afterFrameCheck
  split
  · exact ⟨.ok, rfl, .inl rfl, rfl, rfl⟩
  · exact ⟨.ce, rfl, .inr rfl, rfl, rfl⟩

/-! ### The header of a built frame -/

/-- The bytes of a header: sync byte, group selector, field selectors (R170). -/
def headerBytes (sel : Byte) (words : List Word16) : List Byte := Config.sync :: sel :: wordBytes words

/-- The state in which the header check judges a built header. -/
def State.withHeader (sel : Byte) (words : List Word16) (s : State) : State :=
  { s with
    state := .awaitingFieldSelectors, buf := headerBytes sel words, gsel := sel, groups := groupsOf sel,
    hdrLen := hdrLenOf sel }

/-- The outputs are no operand of the header check. -/
theorem checkHeader_emit (s : State) (o : StepOut) : checkHeader (s.emit o) = checkHeader s := rfl

/-- The last field selector, after a run of stored ones, completes the header (R105). -/
theorem feedAll_selectors {bs : List Byte} {b : Byte} (hs : s.state = .awaitingFieldSelectors)
    (hl : s.buf.length + bs.length + 1 = s.hdrLen) (h : checkHeader (s.appendBytes (bs ++ [b])) = .next u) :
    feedAll (bs ++ [b]) s = .next (u.emit (.append (.ofLabels (.replicate bs.length .fsel)) u.out)) := by
  refine (appendsFor_fsel hs (by omega)).feedAll_concat_eq le_rfl ?_
  have hlast : (s.appendBytes bs).buf.length + 1 = (s.appendBytes bs).hdrLen := by
    simpa [State.appendBytes] using hl
  rw [feed_of_awaitingFieldSelectors (s := s.appendBytes bs) b hs, if_pos hlast, State.appendByte_appendBytes, h]

/-- The state after the sync byte of a frame (R102). -/
def State.afterSync (s : State) : State :=
  ((s.clearBuf.appendByte Config.sync).enter .awaitingGroupSelector).emit (.ofLabel .sync)

theorem feed_sync (hs : s.state = .awaitingSync) : feed Config.sync s = .next s.afterSync :=
  (feed_of_awaitingSync Config.sync hs).trans (congrArg Host.Outcome.next (if_pos rfl))

/-- A selector that names no group completes the header (R104, decision D5). -/
theorem feed_last_selector {sel : Byte} (hsel : groupsOf sel = []) :
    feed sel s.afterSync = checkHeader (afterSelector sel s.afterSync) := by
  have hl : 1 + 1 = hdrLenOf sel := by simp [hdrLenOf, hsel]
  exact (feed_of_awaitingGroupSelector sel rfl).trans (if_pos hl)

theorem feed_selector {sel : Byte} (hsel : groupsOf sel ≠ []) :
    feed sel s.afterSync = .next ((afterSelector sel s.afterSync).emit (.ofLabel .gsel)) := by
  have hl : 1 + 1 ≠ hdrLenOf sel := by simpa [hdrLenOf] using hsel
  exact (feed_of_awaitingGroupSelector sel rfl).trans (if_neg hl)

/-- Fed to a scanner that hunts for sync, a built header is judged at its last byte, after labels that are no error. -/
theorem feedAll_headerBytes {sel : Byte} {words : List Word16} (hs : s.state = .awaitingSync)
    (hwords : words.length = (groupsOf sel).length) (h : checkHeader (s.withHeader sel words) = .next u) :
    ∃ ls, (∀ l ∈ ls, l.errorClass = none) ∧
      feedAll (headerBytes sel words) s = .next (u.emit (.append (.ofLabels ls) u.out)) := by
  have hbytes : (wordBytes words).length = 2 * (groupsOf sel).length := by rw [wordBytes_length, hwords]
  obtain hnil | ⟨bs, b, hbs⟩ := List.eq_nil_or_concat' (wordBytes words)
  · have hsel : groupsOf sel = [] := by simpa [hnil] using hbytes.symm
    have hheader : headerBytes sel words = [Config.sync, sel] := by rw [headerBytes, hnil]
    have hstate : afterSelector sel s.afterSync = (s.withHeader sel words).emit (.ofLabel .sync) := by
      rw [State.withHeader, hheader]
      rfl
    have hlast : feed sel s.afterSync = .next u := by rw [feed_last_selector hsel, hstate, checkHeader_emit, h]
    refine ⟨[.sync], by decide, ?_⟩
    rw [hheader]
    exact feedAll_cons_next.mpr ⟨_, u, feed_sync hs, feedAll_singleton hlast, rfl⟩
  · have hlen : bs.length + 1 = 2 * (groupsOf sel).length := by simpa [hbs] using hbytes
    have hsel : groupsOf sel ≠ [] := by
      intro hnil
      simp [hnil] at hlen
    have hheader : headerBytes sel words = Config.sync :: sel :: (bs ++ [b]) := by rw [headerBytes, hbs]
    have hstate : (afterSelector sel s.afterSync).appendBytes (bs ++ [b]) =
        (s.withHeader sel words).emit (.ofLabel .sync) := by
      rw [State.withHeader, hheader]
      rfl
    have hcheck : checkHeader ((afterSelector sel s.afterSync).appendBytes (bs ++ [b])) = .next u := by
      rw [hstate, checkHeader_emit, h]
    have hrest := feedAll_selectors rfl (by simp [State.afterSync]; omega) hcheck
    rw [← feedAll_emit _ _ (.ofLabel .gsel)] at hrest
    refine ⟨.sync :: .gsel :: .replicate bs.length .fsel, ?_, ?_⟩
    · refine List.forall_mem_cons.mpr ⟨rfl, List.forall_mem_cons.mpr ⟨rfl, fun l hl => ?_⟩⟩
      rw [List.eq_of_mem_replicate hl]
      rfl
    · rw [hheader]
      exact feedAll_cons_next.mpr ⟨_, _, feed_sync hs,
        feedAll_cons_next.mpr ⟨_, _, feed_selector hsel, hrest, rfl⟩, rfl⟩

/-! ### The built frame -/

/-- The selector bytes of a built header are those the builder was given. -/
theorem slice_headerBytes {sel : Byte} {words : List Word16} (hwords : words.length = (groupsOf sel).length) :
    slice (headerBytes sel words) 2 (hdrLenOf sel) = wordBytes words := by
  simp [slice, headerBytes, hdrLenOf, hwords]

theorem headerBytes_length {sel : Byte} {words : List Word16} (hwords : words.length = (groupsOf sel).length) :
    (headerBytes sel words).length = hdrLenOf sel := by
  simp [headerBytes, hdrLenOf, hwords]
  omega

/-- A built frame, cut where the scanner cuts it (R78, R170). -/
theorem buildFrame_eq_headerBytes (sel : Byte) (words : List Word16) (payload : List Byte) :
    buildFrame sel words payload = headerBytes sel words ++ (payload ++
      [hi (crc16 (frameBody sel words payload))] ++ [lo (crc16 (frameBody sel words payload))]) := by
  simp [buildFrame_eq, headerBytes, frameBody]

/-- The host is given a frame exactly by operands in the domain, and it is the one they build. -/
theorem exec_build_eq_next {sel : Byte} {words : List Word16} {payload frame : List Byte}
    (h : exec (.build sel words payload) s = .next { s with out := Spec.valueOut (.bytes frame) }) :
    words.length = (groupsOf sel).length ∧ frame = buildFrame sel words payload := by
  obtain ⟨hdom, hret⟩ := guard_eq_next.mp h
  have hout := congrArg State.out (Host.Outcome.next.inj hret)
  cases hout
  exact ⟨beq_iff_eq.mp hdom, rfl⟩

/-- What the delivery of `payload` leaves, seen from the state `s` that the frame found (R117). -/
structure Delivers (payload : List Byte) (s t : State) : Prop where
  state    : t.state = .awaitingSync
  buf      : t.buf = []
  ok       : t.okCount = satInc s.okCount
  hdrErr   : t.hdrErrCount = s.hdrErrCount
  crcErr   : t.crcErrCount = s.crcErrCount
  record   : t.record = some (recordOf payload)
  recValid : t.recValid = true
  events   : t.out.events = [.frameComplete payload]
  last     : t.out.labels.getLast? = some .ok
  noError  : ∀ l ∈ t.out.labels, l.errorClass = none

section
variable {sel : Byte} {words : List Word16} {payload : List Byte}

/-- The header check is asked for the length that the builder's words resolve to. -/
theorem resolve_withHeader (s : State) (hwords : words.length = (groupsOf sel).length) :
    resolve (s.withHeader sel words).groups
      (slice (s.withHeader sel words).buf 2 (s.withHeader sel words).hdrLen) =
    resolve (groupsOf sel) (wordBytes words) :=
  congrArg (resolve (groupsOf sel)) (slice_headerBytes hwords)

/-- The frame check accepts a built frame: it carries the checksum of its own body. -/
theorem checkFrame_buildFrame (hbuf : s.buf = buildFrame sel words payload) (hhdr : s.hdrLen = hdrLenOf sel)
    (hlen : s.payLen = 144) (hwords : words.length = (groupsOf sel).length) (hpay : payload.length = 144) :
    checkFrame s = .next (completeFrame payload (recordOf payload) s) := by
  have hcut := buildFrame_eq_headerBytes sel words payload
  have hheader := headerBytes_length hwords
  have hcalc : Spec.frameCalc s.buf = Spec.frameRx s.buf := by
    rw [hbuf, frameCalc_buildFrame, frameRx_buildFrame]
  have hpayload : Spec.framePayload s = payload := by
    rw [Spec.framePayload, hbuf, hcut, hhdr, ← hheader, List.drop_left, List.append_assoc, List.take_left' hpay]
  have htotal : s.buf.length = s.hdrLen + s.payLen + 2 := by
    simp [hbuf, hcut, hhdr, hheader, hlen, hpay]
  rw [checkFrame_eq_afterFrameCheck hlen htotal, Spec.afterFrameCheck, if_pos hcalc, hpayload,
    unpack_eq_ok.mpr ⟨hpay, rfl⟩]
  rfl

theorem feedAll_buildFrame (hs : s.state = .awaitingSync) (hwords : words.length = (groupsOf sel).length)
    (hres : resolve (groupsOf sel) (wordBytes words) = some 144) (hpay : payload.length = 144) :
    ∃ t, feedAll (buildFrame sel words payload) s = .next t ∧ Delivers payload s t := by
  have hcheck := checkHeader_of_resolve_eq (s := s.withHeader sel words) (headerBytes_length hwords)
    ((resolve_withHeader s hwords).trans hres)
  obtain ⟨ls, hls, hheader⟩ := feedAll_headerBytes hs hwords hcheck
  have hrest := feedAll_payload
    (s := ((s.withHeader sel words).takePayLen 144).enter .awaitingPayloadAndChecksum)
    (bs := payload ++ [hi (crc16 (frameBody sel words payload))]) rfl
    (by simp [State.withHeader, headerBytes_length hwords, hpay])
    (checkFrame_buildFrame (buildFrame_eq_headerBytes sel words payload).symm rfl rfl hwords hpay)
  have hrun := feedAll_append_next.mpr
    ⟨_, _, hheader, (feedAll_emit ..).trans ((feedAll_emit ..).trans hrest), rfl⟩
  rw [← buildFrame_eq_headerBytes] at hrun
  refine ⟨_, hrun, rfl, rfl, rfl, rfl, rfl, rfl, rfl, rfl, ?_, ?_⟩
  · simp [StepOut.append, completeFrame]
  · intro l hl
    have hcases : l ∈ ls ∨ l = .hdrOk ∨ l = .pay ∨ l = .ok := by
      simpa [StepOut.append, StepOut.ofLabels, StepOut.ofLabel, completeFrame] using hl
    obtain hmem | rfl | rfl | rfl := hcases
    · exact hls l hmem
    · rfl
    · rfl
    · rfl

/-- A built header that resolves to another length is a header error, named by the last of its labels. -/
theorem feedAll_headerBytes_of_resolve_ne {n : Nat} (hs : s.state = .awaitingSync)
    (hwords : words.length = (groupsOf sel).length) (hres : resolve (groupsOf sel) (wordBytes words) = some n)
    (hn : n ≠ 144) : ∃ t, feedAll (headerBytes sel words) s = .next t ∧ .heLen ∈ t.out.labels := by
  have hcheck := checkHeader_of_resolve_ne (s := s.withHeader sel words) (headerBytes_length hwords)
    ((resolve_withHeader s hwords).trans hres) hn
  obtain ⟨ls, -, hheader⟩ := feedAll_headerBytes hs hwords hcheck
  exact ⟨_, hheader, List.mem_append_right ls (List.mem_singleton_self _)⟩

end

/-- Every payload a run delivers has 144 bytes (R33). -/
theorem feedAll_payload_length {bs p : List Byte} (h : feedAll bs s = .next t)
    (hp : .frameComplete p ∈ t.out.events) : p.length = 144 := by
  induction bs generalizing s t with
  | nil =>
    cases h
    cases hp
  | cons b rest ih =>
    obtain ⟨u, v, hu, hv, rfl⟩ := feedAll_cons_next.mp h
    obtain hfirst | hrest := List.mem_append.mp hp
    · obtain ⟨l, -, ho⟩ | ⟨q, -, hq, ho⟩ := feed_out hu
      · rw [ho] at hfirst
        cases hfirst
      · rw [ho] at hfirst
        cases List.mem_singleton.mp hfirst
        exact hq
    · exact ih hv hrest

end Sys2Proof.Machine

namespace Sys2Proof.Proofs

open Sys2Proof Sys2Proof.Machine

/-- Settles O55, from `feedAll_buildFrame`. -/
theorem validFrameIsDelivered : Obligations.ValidFrameIsDelivered := by
  intro s sel words payload frame hs hbuild hres hpay
  obtain ⟨hwords, rfl⟩ := exec_build_eq_next hbuild
  obtain ⟨t, ht, hd⟩ := feedAll_buildFrame hs hwords hres hpay
  exact ⟨t, ht, hd.state, hd.buf, hd.ok, hd.hdrErr, hd.crcErr, unpack_eq_ok.mpr ⟨hpay, rfl⟩, hd.record, hd.recValid,
    hd.events, hd.last⟩

/-- Settles O57: the reference selectors resolve to 144, and what is packed is what is unpacked. -/
theorem loopbackReturnsTheRecord : Obligations.LoopbackReturnsTheRecord := by
  intro s r frame hs hbuild
  obtain ⟨hwords, rfl⟩ := exec_build_eq_next (sel := Config.refGroupSel) (words := Config.refFieldSel) hbuild
  have hres : resolve (groupsOf Config.refGroupSel) (wordBytes Config.refFieldSel) = some 144 := by decide
  obtain ⟨t, ht, hd⟩ := feedAll_buildFrame hs hwords hres (pack_length r)
  have hrecord : t.record = some r := by rw [hd.record, recordOf_pack]
  exact ⟨t, ht, hd.state, by simp [State.readRecord, hd.recValid, hrecord], hd.recValid, hd.events, hd.ok⟩

/-- Settles O51: the bytes up to the last are stored, and the last ends the frame in the check. -/
theorem payloadAndChecksumAreTakenWhole : Obligations.PayloadAndChecksumAreTakenWhole := by
  intro s bs b hinv hs hl
  obtain ⟨⟨-, -, -, hpay, -⟩, -⟩ := (inv_iff_of_awaitingPayloadAndChecksum hs).mp hinv
  refine ⟨⟨_, (appendsFor_pay hs (n := bs.length) (by omega)).feedAll_eq le_rfl, rfl, rfl, rfl, rfl, rfl, rfl, rfl⟩, ?_⟩
  have hlen : (s.appendBytes (bs ++ [b])).buf.length = s.hdrLen + s.payLen + 2 := by
    simp [State.appendBytes, hpay]
    omega
  obtain ⟨u, hcheck, l, hlabel, hend, hstate, hbuf⟩ := checkFrame_ends (s := s.appendBytes (bs ++ [b])) hpay hlen
  refine ⟨_, l, feedAll_payload hs (by omega) hcheck, ?_, hend, hstate, hbuf⟩
  simp [StepOut.append, StepOut.ofLabels, hlabel]

/-- Settles O56: a header that resolves to another length raises an error at its last byte, and a delivered payload has
144 bytes. -/
theorem acceptanceLaw : Obligations.AcceptanceLaw := by
  intro s sel words payload frame hs hbuild
  obtain ⟨hwords, rfl⟩ := exec_build_eq_next hbuild
  constructor
  · rintro ⟨t, ht, hevents, -, hnoError⟩
    refine ⟨?_, feedAll_payload_length ht (by simp [hevents])⟩
    have hdom : resolveDomain (groupsOf sel) (wordBytes words) = true := resolveDomain_groupsOf (by simp [hwords])
    have hres : resolve (groupsOf sel) (wordBytes words) = some (totalWidth (groupsOf sel) (wordBytes words)) :=
      if_pos hdom
    by_contra hne
    have hn : totalWidth (groupsOf sel) (wordBytes words) ≠ 144 := fun h => hne (hres.trans (congrArg some h))
    obtain ⟨u, hu, hlabel⟩ := feedAll_headerBytes_of_resolve_ne hs hwords hres hn
    rw [buildFrame_eq_headerBytes] at ht
    obtain ⟨u', v, hu', -, rfl⟩ := feedAll_append_next.mp ht
    cases hu.symm.trans hu'
    cases hnoError .heLen (List.mem_append_left _ hlabel)
  · rintro ⟨hres, hpay⟩
    obtain ⟨t, ht, hd⟩ := feedAll_buildFrame hs hwords hres hpay
    exact ⟨t, ht, hd.events, hd.last, hd.noError⟩

end Sys2Proof.Proofs
end

section
/-! PROOFS. The resolver's bounds, the refusals, and the construction of the scanner (10_state.md R31, R38,
41_framescanner.md R111, R112, 42_length_resolver.md R132, R135, R136, 45_frame_builder.md R170): O1, O17, O21 to O23,
O27, O28 and O50. -/

namespace Sys2Proof.Machine

/-! ### No payload length exceeds 1000 -/

/-- A mask adds at most what the mask with every bit adds. -/
theorem maskWidth_le (g : Nat) (m : Word16) : maskWidth g m ≤ maskWidth g (BitVec.allOnes 16) := by
  refine List.sum_le_sum fun j hj => ?_
  have hall : (BitVec.allOnes 16).getLsbD j = true := by
    rw [BitVec.getLsbD_allOnes]
    exact decide_eq_true (List.mem_range.mp hj)
  rw [if_pos hall]
  split
  · exact le_rfl
  · exact Nat.zero_le _

theorem totalWidth_le (gs : List Nat) (fb : List Byte) :
    totalWidth gs fb ≤ (gs.map fun g => maskWidth g (BitVec.allOnes 16)).sum := by
  induction gs, fb using totalWidth.induct with
  | case1 g gs h l fb ih =>
    rw [totalWidth, List.map_cons, List.sum_cons]
    exact Nat.add_le_add (maskWidth_le g _) ih
  | case2 gs fb hne =>
    rw [totalWidth]
    · exact Nat.zero_le _
    · exact hne

/-- No group is counted twice, and the seven groups with every bit add up to 1000 (R136). -/
theorem resolve_le_1000 {gs : List Nat} {fb : List Byte} {n : Nat} (h : resolve gs fb = some n) : n ≤ 1000 := by
  have hdom : resolveDomain gs fb = true := by
    by_contra hne
    simp [resolve, hne] at h
  obtain ⟨hlt, -, -⟩ := resolveDomain_iff.mp hdom
  have hn : totalWidth gs fb = n := by simpa [resolve, hdom] using h
  have hsub : gs.toFinset ⊆ Finset.range 7 := fun g hg => Finset.mem_range.mpr (hlt g (List.mem_toFinset.mp hg))
  calc n ≤ (gs.map fun g => maskWidth g (BitVec.allOnes 16)).sum := hn ▸ totalWidth_le gs fb
    _ = ∑ g ∈ gs.toFinset, maskWidth g (BitVec.allOnes 16) :=
      (List.sum_toFinset _ (nodup_of_resolveDomain hdom)).symm
    _ ≤ ∑ g ∈ Finset.range 7, maskWidth g (BitVec.allOnes 16) := Finset.sum_le_sum_of_subset hsub
    _ = 1000 := by decide

/-! ### Refusals -/

/-- Outside its contract `RESOLVE` has no value (R135, decision D15). -/
theorem resolveDomain_eq_false {gs : List Nat} {fb : List Byte}
    (h : (∃ g ∈ gs, 7 ≤ g) ∨ ¬ gs.Pairwise (· < ·) ∨ fb.length ≠ 2 * gs.length) : resolveDomain gs fb = false := by
  by_contra hne
  obtain ⟨hlt, hasc, hlen⟩ := resolveDomain_iff.mp (Bool.not_eq_false _ ▸ hne)
  obtain ⟨g, hg, h7⟩ | hnasc | hnlen := h
  · exact absurd (hlt g hg) (by omega)
  · exact hnasc hasc
  · exact hnlen hlen

theorem checkHeader_of_resolve_none {s : State} (hl : s.buf.length = s.hdrLen)
    (hres : resolve s.groups (slice s.buf 2 s.hdrLen) = none) : checkHeader s = .refused .outsideDomain := by
  simp [checkHeader, hl, hres]

/-- A frame that verifies but carries no payload of 144 bytes has no record (assumption log 20). -/
theorem checkFrame_of_payLen_ne {s : State} (hl : s.buf.length = s.hdrLen + s.payLen + 2) (hp : s.payLen ≠ 144)
    (hsum : Spec.frameCalc s.buf = Spec.frameRx s.buf) : checkFrame s = .refused .outsideDomain := by
  have hverified := (crcVerify_iff_frameCalc s.buf).mpr hsum
  obtain ⟨-, -, r, hu, -⟩ | ⟨-, hv, -⟩ | ⟨-, -, hr⟩ | ⟨hne, -⟩ := checkFrame_cases (s := s) rfl
  · obtain ⟨hlen, -⟩ := unpack_eq_ok.mp hu
    rw [slice_length (by omega)] at hlen
    exact absurd hlen (by omega)
  · simp [hverified] at hv
  · exact hr
  · exact absurd hl hne

end Sys2Proof.Machine

namespace Sys2Proof.Proofs

open Sys2Proof Sys2Proof.Machine

/-- Settles O27, from `resolve_le_1000`; the value that reaches the bound is evaluated. -/
theorem resolveIsAtMost1000 : Obligations.ResolveIsAtMost1000 :=
  ⟨fun _ _ _ => resolve_le_1000, by decide⟩

/-- Settles O23, from `groupsOf_ascending` and `mem_groupsOf`. -/
theorem groupsListsTheSetBits : Obligations.GroupsListsTheSetBits :=
  fun _ sel => ⟨groupsOf sel, rfl, groupsOf_ascending sel, fun _ => mem_groupsOf⟩

/-- Settles O28: two units outside their domains, and the two checks on operands no run produces. -/
theorem operandsOutsideTheDomainAreRefused : Obligations.OperandsOutsideTheDomainAreRefused := by
  refine ⟨fun s gs fb h => ?_, fun s sel words payload h => ?_, fun s => checkHeader_of_resolve_none,
    fun s => checkFrame_of_payLen_ne⟩
  · exact exec_unit_of_not_wf (i := .resolve gs fb) rfl (resolveDomain_eq_false h) s
  · exact exec_unit_of_not_wf (i := .build sel words payload) rfl (beq_eq_false_iff_ne.mpr h) s

/-- Settles O17: each row's own guard is false. -/
theorem rowsAreRefusedWhereNotSelected : Obligations.RowsAreRefusedWhereNotSelected := by
  refine ⟨fun s h => if_neg h, fun s b h => if_neg ?_, fun s b h => if_neg h, fun s b h => if_neg h,
    fun s b h => if_neg h, fun s h => if_neg h, fun s h => if_neg h⟩
  rintro ⟨hs, hb⟩
  obtain hne | rfl := h
  · exact hne hs
  · exact hb rfl

/-- Settles O50: the increment in numbers is `satInc_toNat`. -/
theorem incrementSaturates : Obligations.IncrementSaturates := fun _ => satInc_toNat

/-- Settles O1: the fields of the constructed scanner. -/
theorem resetLeavesTheConstructedScanner : Obligations.ResetLeavesTheConstructedScanner :=
  ⟨rfl, rfl, rfl, rfl, rfl, rfl, rfl, rfl⟩

/-- Settles O22: the constructed scanner, whatever the state before, with the events that waited. -/
theorem resetEventReconstructsTheScanner : Obligations.ResetEventReconstructsTheScanner :=
  fun _ => ⟨_, rfl, rfl, rfl, rfl, rfl, rfl, rfl, rfl, rfl, rfl, List.append_nil _⟩

/-- Settles O21: `IDLE` writes the outputs only. -/
theorem idleChangesNothing : Obligations.IdleChangesNothing := fun _ => rfl

end Sys2Proof.Proofs
end
